-- ==== Sys2Proof/Word.lean ====
section
/-!
DEFINITION. The words of the block: the fixed widths of 00_scope.md rule R5 and 30_encoding.md rules R42 and R43.
Bit 0 is the least significant bit of every word (R6) and every value is unsigned.
-/

namespace Sys2Proof

/-- A 32-bit word: `wdata_i`, `rdata_o`, the periods, the timer counters and `FRC` (R5: `DW`, `PW`, `FRC_W`). -/
abbrev Word := BitVec 32

/-- A channel mask, bit `i` for channel `i` (R5: `NCH`; R6). -/
abbrev Mask := BitVec 8

/-- The operation select `op_i` (R5: `OPW`). -/
abbrev Op := BitVec 4

/-- The control register's two bits: bit 0 `FAST_EN`, bit 1 `SLOW_EN` (R14). -/
abbrev Enables := BitVec 2

/-- One debounce counter, 0 to 3 (R5: `CNT_W`; R11). -/
abbrev Count := BitVec 2

/-- The 36-bit command word, `op_i` in bits 35 to 32 and `wdata_i` in bits 31 to 0 (R43). -/
abbrev Cmd := BitVec 36

end Sys2Proof
end

