-- ==== Sys2Proof/Config.lean ====
section
/-!
DEFINITION. The parameters of the block (00_scope.md rule R5) and the free values (93_implementation_defined.md).
The opaque constants have no body: no statement can rest on a value of theirs.
-/

namespace Sys2Proof.Config

/-- `NCH`: the number of channel lanes in every mask (R5). -/
abbrev nch : Nat := 8

/-- `N_USED`: the channels wired to buttons, which the block itself does not know (R5). -/
abbrev nUsed : Nat := 3

/-- `CNT_MAX`: the reload value of a debounce counter (R5). -/
abbrev cntMax : Count := 3#2

/-- `THRESH`: the consecutive disagreeing samples that commit a change (R5). -/
abbrev thresh : Nat := 3

/-- `POLARITY` (R5, R56): left OPEN by the spec, so a constant without a body.
DESIGN CHOICE (log entry 3): `State.reset` holds it in the field `polarity`. Safe. -/
opaque polarity : Mask

/-- The free draws for bits of `raw_i` that have no stated level in a cycle (U2 of 93_implementation_defined.md):
draw `n`, bit `i`.
DESIGN CHOICE (log entry 4): one function of a counter that the machine never repeats. Safe. -/
opaque freeRaw : Nat → Mask

end Sys2Proof.Config
end

