-- ==== Sys2Proof/Syntax.lean ====
section
/-!
DEFINITION. The operations of the port, one constructor per row of spec/opcode_table.json (30_encoding.md rules R46
and R55), the formats (R44), and the pseudo-operations (R52).
-/

namespace Sys2Proof

/-- The nine port operations and the three rows of reserved opcodes (R46, R55). -/
inductive Instr where
  /-- `NOP`, 0x0 (R97). -/
  | nop
  /-- `CHKCLR mask`, 0x1 (R71). -/
  | chkclr (mask : Mask)
  /-- `RDCTRL`, 0x2 (R88). -/
  | rdctrl
  /-- `WRCTRL en`, 0x3 (R89). -/
  | wrctrl (en : Enables)
  /-- `RDFP`, 0x4 (R90). -/
  | rdfp
  /-- `WRFP val`, 0x5 (R91). -/
  | wrfp (val : Word)
  /-- `RDSP`, 0x6 (R92). -/
  | rdsp
  /-- `WRSP val`, 0x7 (R93). -/
  | wrsp (val : Word)
  /-- `RDFRC`, 0x8 (R94). -/
  | rdfrc
  /-- Reserved opcode 0x9 (R98). -/
  | rsvd9
  /-- Reserved opcodes 0xA and 0xB; `op` says which (R98; log entry 9). -/
  | rsvdAB (op : Op)
  /-- Reserved opcodes 0xC to 0xF; `op` says which (R98; log entry 9). -/
  | rsvdCF (op : Op)
  deriving DecidableEq, Repr

/-- The four command formats (R44). -/
inductive Format where
  /-- No operand. -/
  | n
  /-- Mask operand. -/
  | m
  /-- Control operand. -/
  | c
  /-- Word operand. -/
  | w
  deriving DecidableEq, Repr

/-- The format of each operation (R44, R46). -/
def Instr.format : Instr → Format
  | .nop => .n
  | .chkclr _ => .m
  | .rdctrl => .n
  | .wrctrl _ => .c
  | .rdfp => .n
  | .wrfp _ => .w
  | .rdsp => .n
  | .wrsp _ => .w
  | .rdfrc => .n
  | .rsvd9 => .n
  | .rsvdAB _ => .n
  | .rsvdCF _ => .n

/-- The row of spec/opcode_table.json an operation belongs to, by its mnemonic (R55). -/
def Instr.mnemonic : Instr → String
  | .nop => "NOP"
  | .chkclr _ => "CHKCLR"
  | .rdctrl => "RDCTRL"
  | .wrctrl _ => "WRCTRL"
  | .rdfp => "RDFP"
  | .wrfp _ => "WRFP"
  | .rdsp => "RDSP"
  | .wrsp _ => "WRSP"
  | .rdfrc => "RDFRC"
  | .rsvd9 => "RSVD_9"
  | .rsvdAB _ => "RSVD_A_B"
  | .rsvdCF _ => "RSVD_C_F"

/-- The pseudo-operations of R52; none has an opcode of its own. -/
inductive Pseudo where
  /-- `IDLE n`: `n` cycles of `NOP`. -/
  | idle (n : Nat)
  /-- `POLL m`: `CHKCLR m`, whose response the host tests. -/
  | poll (m : Mask)
  /-- `CLRALL`: `CHKCLR 0xFF`, response discarded (R76). -/
  | clrall
  /-- `POLLSTART m`: `CHKCLR m`, `m` having only the bit of the start button. -/
  | pollstart (m : Mask)
  /-- `SETPERIODS f, s`: `WRFP f`, `WRSP s`, `WRCTRL 3` in three consecutive cycles (R123). -/
  | setperiods (f s : Word)
  deriving DecidableEq, Repr

/-- The expansion of a pseudo-operation, one operation a cycle (R52). -/
def Pseudo.expand : Pseudo → List Instr
  | .idle n => List.replicate n .nop
  | .poll m => [.chkclr m]
  | .clrall => [.chkclr 0xFF#8]
  | .pollstart m => [.chkclr m]
  | .setperiods f s => [.wrfp f, .wrsp s, .wrctrl 3#2]

end Sys2Proof
end

