-- ==== Sys2Proof/WellFormed.lean ====
section
/-!
DEFINITION. Which terms of the syntax stand for something the port can be given.
Every mask, every enable pair and every period is legal (30_encoding.md rule R48), so the only checks are on the
select value that a reserved row keeps, and on `POLLSTART`'s mask (rule R52).
-/

namespace Sys2Proof

/-- A reserved row holds one of the `op_i` values of its pattern: `101-` is 0xA and 0xB, `11--` is 0xC to 0xF
(R46, R55). All operands of the other operations are legal (R48). -/
def Instr.wellFormed : Instr → Bool
  | .nop => true
  | .chkclr _ => true
  | .rdctrl => true
  | .wrctrl _ => true
  | .rdfp => true
  | .wrfp _ => true
  | .rdsp => true
  | .wrsp _ => true
  | .rdfrc => true
  | .rsvd9 => true
  | .rsvdAB op => op == 0xA#4 || op == 0xB#4
  | .rsvdCF op => op == 0xC#4 || op == 0xD#4 || op == 0xE#4 || op == 0xF#4

/-- `POLLSTART`'s mask has only the bit of the start button, whichever channel that is (R52); the other
pseudo-operations take every operand. -/
def Pseudo.wellFormed : Pseudo → Bool
  | .idle _ => true
  | .poll _ => true
  | .clrall => true
  | .pollstart m => (List.range 8).any fun i => m == 1#8 <<< i
  | .setperiods _ _ => true

end Sys2Proof
end

