-- ==== Sys2Proof/Decode.lean ====
section
/-!
DEFINITION. The command word, the operand fields, the decoder and the encoder (30_encoding.md rules R43 to R48, R54,
R55), and the opcode table as data.
Decoding looks at `op_i` alone and every 36-bit word decodes (R46), so the decoder refuses nothing; only
`decodeTableWord` refuses, and only a number that is no command word.
-/

namespace Sys2Proof

/-- `CMD = (op_i, wdata_i)`, `op_i` in the high bits (R43). -/
def cmdOf (op : Op) (wdata : Word) : Cmd := op ++ wdata

/-- Field `op`, `CMD[35:32]` (R44). -/
def opField (cmd : Cmd) : Op := cmd.extractLsb' 32 4

/-- `wdata_i`, `CMD[31:0]` (R43). -/
def wdataField (cmd : Cmd) : Word := cmd.extractLsb' 0 32

/-- Operand `mask = wdata_i[7:0]` (R45). -/
def maskOperand (wdata : Word) : Mask := wdata.extractLsb' 0 8

/-- Operand `en = wdata_i[1:0]` (R45). -/
def enOperand (wdata : Word) : Enables := wdata.extractLsb' 0 2

/-- The operation that `op_i` selects, with its operand taken from `wdata_i`; total (R46, R54). -/
def decodePorts (op : Op) (wdata : Word) : Instr :=
  match op.toNat with
  | 0 => .nop
  | 1 => .chkclr (maskOperand wdata)
  | 2 => .rdctrl
  | 3 => .wrctrl (enOperand wdata)
  | 4 => .rdfp
  | 5 => .wrfp wdata
  | 6 => .rdsp
  | 7 => .wrsp wdata
  | 8 => .rdfrc
  | 9 => .rsvd9
  | 10 => .rsvdAB op
  | 11 => .rsvdAB op
  | _ => .rsvdCF op

/-- The operation of a command word (R43, R54). -/
def decode (cmd : Cmd) : Instr := decodePorts (opField cmd) (wdataField cmd)

/-- The `op_i` value of an operation (R46). -/
def opcode : Instr → Op
  | .nop => 0x0#4
  | .chkclr _ => 0x1#4
  | .rdctrl => 0x2#4
  | .wrctrl _ => 0x3#4
  | .rdfp => 0x4#4
  | .wrfp _ => 0x5#4
  | .rdsp => 0x6#4
  | .wrsp _ => 0x7#4
  | .rdfrc => 0x8#4
  | .rsvd9 => 0x9#4
  | .rsvdAB op => op
  | .rsvdCF op => op

/-- The `wdata_i` value of an operation, ignored bits written as 0 (R44, R51). -/
def operandWord : Instr → Word
  | .nop => 0#32
  | .chkclr mask => mask.setWidth 32
  | .rdctrl => 0#32
  | .wrctrl en => en.setWidth 32
  | .rdfp => 0#32
  | .wrfp val => val
  | .rdsp => 0#32
  | .wrsp val => val
  | .rdfrc => 0#32
  | .rsvd9 => 0#32
  | .rsvdAB _ => 0#32
  | .rsvdCF _ => 0#32

/-- The command word of an operation, ignored bits 0 (R43, R51). -/
def encode (i : Instr) : Cmd := cmdOf (opcode i) (operandWord i)

/-- One row of spec/opcode_table.json: a command word `w` selects it iff `w &&& mask = value` (R55). -/
structure OpcodeRow where
  mnemonic : String
  format : Format
  value : Cmd
  mask : Cmd
  deriving DecidableEq, Repr

/-- Whether a command word selects a row (R55). -/
def rowSelects (row : OpcodeRow) (cmd : Cmd) : Bool := cmd &&& row.mask == row.value

/-- The twelve rows of spec/opcode_table.json (R55). -/
def opcodeTable : List OpcodeRow :=
  [⟨"NOP", .n, 0x000000000#36, 0xF00000000#36⟩,
   ⟨"CHKCLR", .m, 0x100000000#36, 0xF00000000#36⟩,
   ⟨"RDCTRL", .n, 0x200000000#36, 0xF00000000#36⟩,
   ⟨"WRCTRL", .c, 0x300000000#36, 0xF00000000#36⟩,
   ⟨"RDFP", .n, 0x400000000#36, 0xF00000000#36⟩,
   ⟨"WRFP", .w, 0x500000000#36, 0xF00000000#36⟩,
   ⟨"RDSP", .n, 0x600000000#36, 0xF00000000#36⟩,
   ⟨"WRSP", .w, 0x700000000#36, 0xF00000000#36⟩,
   ⟨"RDFRC", .n, 0x800000000#36, 0xF00000000#36⟩,
   ⟨"RSVD_9", .n, 0x900000000#36, 0xF00000000#36⟩,
   ⟨"RSVD_A_B", .n, 0xA00000000#36, 0xE00000000#36⟩,
   ⟨"RSVD_C_F", .n, 0xC00000000#36, 0xC00000000#36⟩]

/-- The bits of `wdata_i` that a format uses; the others are ignored (R44, R48). -/
def Format.usedBits : Format → Word
  | .n => 0x00000000#32
  | .m => 0x000000FF#32
  | .c => 0x00000003#32
  | .w => 0xFFFFFFFF#32

/-- The operation whose table bits are `w` (bit 0 is `CMD[0]`): one 36-bit command word, with no byte order to settle
(R29). The table gives every row all of its bits, so `nbits` adds nothing.
DESIGN CHOICE (log entry 10): a number of more than 36 bits is no command word and is refused. Safe. -/
def decodeTableWord (_nbits w : Nat) : Option Instr :=
  if w < 2 ^ 36 then some (decode (BitVec.ofNat 36 w)) else none

end Sys2Proof
end

