-- ==== Sys2Proof/Machine/State.lean ====
section
/-!
DEFINITION. The state (10_state.md rule R10), the ports (30_encoding.md rule R42), the reset values (10_state.md rule
R21) and the reasons a step could stop for (none: 60_exceptions.md rule R105).
-/

namespace Sys2Proof.Machine

/-- The ten registers of the block: the record that R10 calls its complete state. -/
structure Regs where
  /-- `CNT_LO`: the less significant bit of each lane's counter (R11). -/
  cntLo : Mask
  /-- `CNT_HI`: the more significant bit of each lane's counter (R11). -/
  cntHi : Mask
  /-- `STATE`: the committed button state, 1 is pressed (R12). -/
  state : Mask
  /-- `PENDING`: the presses committed and not yet consumed (R13, R23). -/
  pending : Mask
  /-- `CTRL`: bit 0 `FAST_EN`, bit 1 `SLOW_EN` (R14). -/
  ctrl : Enables
  /-- `FAST_PERIOD` (R15). -/
  fastPeriod : Word
  /-- `SLOW_PERIOD` (R16). -/
  slowPeriod : Word
  /-- `FAST_CNT` (R17). -/
  fastCnt : Word
  /-- `SLOW_CNT` (R18). -/
  slowCnt : Word
  /-- `FRC`, the free-running counter (R19). -/
  frc : Word
  deriving DecidableEq, Repr

/-- The values of all registers after a reset cycle (R21). -/
def Regs.reset : Regs where
  cntLo := 0xFF#8
  cntHi := 0xFF#8
  state := 0x00#8
  pending := 0x00#8
  ctrl := 0b00#2
  fastPeriod := 0#32
  slowPeriod := 0#32
  fastCnt := 0#32
  slowCnt := 0#32
  frc := 0#32

/-- The levels on the input ports in one cycle (R42), constant within it (R8). -/
structure Inputs where
  /-- `rst_i` (R119). -/
  rst : Bool
  /-- `raw_i` (R42). -/
  raw : Mask
  /-- The bits of `raw_i` that have no stated level in this cycle: where a bit is 1, the sample taken is a free draw
  (U2 of 93_implementation_defined.md, R124; log entry 4). -/
  rawFree : Mask
  /-- `op_i` (R42). -/
  op : Op
  /-- `wdata_i` (R42). -/
  wdata : Word
  deriving DecidableEq, Repr

/-- The inputs when the outside world states nothing: the idle request `op_i = 0x0` (R42), no reset, and button lines
of no stated level.
DESIGN CHOICE (log entry 2). Unsafe for `rst` and `op`: a claim past the end of the inputs given rests on them. -/
def Inputs.idle : Inputs where
  rst := false
  raw := 0x00#8
  rawFree := 0xFF#8
  op := 0x0#4
  wdata := 0#32

/-- The levels on the output ports in one cycle (R42, R100). -/
structure Outputs where
  /-- `rdata_o` (R49). -/
  rdata : Word
  /-- `fast_tick_o` (R82). -/
  fastTick : Bool
  /-- `slow_tick_o` (R82). -/
  slowTick : Bool
  deriving DecidableEq, Repr

/-- The outputs of a reset cycle (R120). -/
def Outputs.reset : Outputs where
  rdata := 0#32
  fastTick := false
  slowTick := false

/-- The machine at the start of a cycle: the block's registers, and what the model keeps beside them because a step
takes one state to the next (log entry 1): the inputs of this cycle and of the following ones, the outputs of the last
completed cycle, the parameter, and the index of the free draws. -/
structure State where
  /-- The registers (R10). -/
  regs : Regs
  /-- The input ports in the current cycle (log entry 1). -/
  pins : Inputs
  /-- The inputs of the following cycles, first first (log entry 1). -/
  coming : List Inputs
  /-- The output ports in the last completed cycle (log entry 6). -/
  out : Outputs
  /-- The parameter `POLARITY` (R5, R56; log entry 3). -/
  polarity : Mask
  /-- The index of the next free draw (U2; log entry 5). -/
  draws : Nat
  deriving DecidableEq, Repr

/-- Why a step could stop with a fault: never, since the block raises nothing (R105, R106) and its step is total
(R100). A closed type with no constructor says so. -/
inductive Fault where
  deriving DecidableEq, Repr

/-- Why a step could have no meaning. -/
inductive Refusal where
  /-- Raised by an arm of `exec` whose operation has no meaning yet; every operation has one, so no arm raises it.
  Safe: the machine stops. -/
  | notModelled (mnemonic : String)
  deriving DecidableEq, Repr

/-- The machine right after a reset cycle, at the start of cycle 0 (R8, R21, R119). The outputs are those of the reset
cycle (R120). Nothing is presented yet.
DESIGN CHOICE for the fields that are no registers (log entries 3, 5, 6, 8). -/
def State.reset : State where
  regs := Regs.reset
  pins := Inputs.idle
  coming := []
  out := Outputs.reset
  polarity := Config.polarity
  draws := 0

/-- The machine at power-up, before the first reset: registers and outputs that the spec leaves unspecified are
arguments (R121, U1; log entry 7). -/
def State.powerUp (regs : Regs) (out : Outputs) : State :=
  { State.reset with regs := regs, out := out }

end Sys2Proof.Machine
end

