-- ==== Sys2Proof/Machine/Operands.lean ====
section
/-!
DEFINITION. How values are taken from and given to the ports: zero extension of responses (30_encoding.md rule R45),
the sample taken from `raw_i` (40_debouncer.md rule R56), and building a mask lane by lane (rule R63).
-/

namespace Sys2Proof.Machine

/-- `zext_32`: a response narrower than 32 bits is extended with zeros (R7, R31, R45). -/
def zext32 {n : Nat} (v : BitVec n) : Word := v.setWidth 32

/-- The word of `n` bits whose bit `i` is `f i`: lane `i` of a mask is bit `i` (R6, R63). -/
def ofLanes (f : Nat → Bool) : (n : Nat) → BitVec n
  | 0 => 0#0
  | n + 1 => BitVec.cons (f n) (ofLanes f n)

/-- The levels sampled from `raw_i` in this cycle: the driven level, or a free draw where the line has none (R56,
R124, U2; log entry 4). -/
def sampledRaw (s : State) : Mask :=
  ofLanes
    (fun i =>
      if s.pins.rawFree.getLsbD i then (Config.freeRaw s.draws).getLsbD i else s.pins.raw.getLsbD i)
    Config.nch

/-- `s = ~(raw_i ^ POLARITY)`: bit `i` is 1 iff channel `i` reads pressed (R56). -/
def logicalSample (polarity raw : Mask) : Mask := ~~~(raw ^^^ polarity)

/-- The command word on the port in this cycle (R43). -/
def presentedCmd (s : State) : Cmd := cmdOf s.pins.op s.pins.wdata

/-- The operation presented in this cycle (R54). -/
def presented (s : State) : Instr := decode (presentedCmd s)

end Sys2Proof.Machine
end

