-- ==== Sys2Proof/Machine/Debouncer.lean ====
section
/-!
DEFINITION. The Debouncer's internal operation `DEB_TICK` (40_debouncer.md rules R56 to R65), lane by lane as in the
normative table of rule R65, and the bit-sliced form of rule R64 beside it.
-/

namespace Sys2Proof.Machine

/-- The registers of the Debouncer (R11, R12). -/
structure Deb where
  lo : Mask
  hi : Mask
  state : Mask
  deriving DecidableEq, Repr

/-- The Debouncer's part of the registers. -/
def debOf (r : Regs) : Deb := ⟨r.cntLo, r.cntHi, r.state⟩

/-- The counter of channel `i`, `CNT_HI[i]` above `CNT_LO[i]` (R11). -/
def laneCount (d : Deb) (i : Nat) : Count :=
  BitVec.ofBool (d.hi.getLsbD i) ++ BitVec.ofBool (d.lo.getLsbD i)

/-- `satdec2`: the 2-bit decrement that stops at 0 (R7, R69). -/
def satdec2 (c : Count) : Count := if c = 0#2 then 0#2 else c - 1#2

/-- One lane: the counter to store and whether the lane flips, from the counter and the disagreement bit (R59, R60,
table of R65). -/
def laneStep (c : Count) (x : Bool) : Count × Bool :=
  if x then
    if satdec2 c = 0#2 then (Config.cntMax, true) else (satdec2 c, false)
  else (Config.cntMax, false)

/-- The disagreement mask `x = s ^ STATE` (R58). -/
def disagreement (d : Deb) (sample : Mask) : Mask := sample ^^^ d.state

/-- Lane `i` of a tick on the logical sample (R63, R65). -/
def laneResult (d : Deb) (sample : Mask) (i : Nat) : Count × Bool :=
  laneStep (laneCount d i) ((disagreement d sample).getLsbD i)

/-- `flip`: the lanes whose committed state changes in this tick (R60). -/
def flipMask (d : Deb) (sample : Mask) : Mask := ofLanes (fun i => (laneResult d sample i).2) Config.nch

/-- `press = flip & ~STATE`, with the pre-edge `STATE` (R62). -/
def pressMask (d : Deb) (sample : Mask) : Mask := flipMask d sample &&& ~~~d.state

/-- The Debouncer's registers after a tick on the logical sample (R61, R65). -/
def debTick (d : Deb) (sample : Mask) : Deb where
  lo := ofLanes (fun i => (laneResult d sample i).1.getLsbD 0) Config.nch
  hi := ofLanes (fun i => (laneResult d sample i).1.getLsbD 1) Config.nch
  state := d.state ^^^ flipMask d sample

/-- `flip` as one bitwise equation (R64). -/
def slicedFlip (d : Deb) (sample : Mask) : Mask := disagreement d sample &&& ~~~d.hi

/-- The next `CNT_HI` as one bitwise equation (R64). -/
def slicedHi (d : Deb) (sample : Mask) : Mask := ~~~(disagreement d sample &&& d.hi &&& ~~~d.lo)

/-- The next `CNT_LO` as one bitwise equation (R64). -/
def slicedLo (d : Deb) (sample : Mask) : Mask := ~~~(disagreement d sample &&& d.hi &&& d.lo)

end Sys2Proof.Machine
end

