-- ==== Sys2Proof/Machine/Flags.lean ====
section
/-!
DEFINITION. The Edge Event Store's side of a cycle: the eight bits of `PENDING`, the block's only flags (10_state.md
rule R23; 41_edge_event_store.md rules R70 to R73).
-/

namespace Sys2Proof.Machine

/-- What `CHKCLR mask` answers: the selected pending bits, pre-edge (R71). -/
def pendingHits (pending mask : Mask) : Mask := pending &&& mask

/-- `PENDING <- (PENDING & ~clr) | press`: set wins over clear (R72). -/
def pendingNext (pending clr press : Mask) : Mask := (pending &&& ~~~clr) ||| press

end Sys2Proof.Machine
end

