-- ==== Sys2Proof/Machine/Timer.lean ====
section
/-!
DEFINITION. One period timer, defined once, and its two instances (42_tick_generator.md rules R78 to R85).
-/

namespace Sys2Proof.Machine

/-- A timer: enable, period, counter (R78). -/
structure Timer where
  en : Bool
  period : Word
  cnt : Word
  deriving DecidableEq, Repr

/-- Whether the timer counts at all: enabled, and a period that is not 0 (R83, R84). -/
def timerRuns (t : Timer) : Bool := t.en && t.period != 0#32

/-- `tick = EN & (PERIOD != 0) & (CNT >= PERIOD - 1)`, from pre-edge values (R78). -/
def timerTick (t : Timer) : Bool := timerRuns t && (t.period - 1#32).ule t.cnt

/-- The next counter; `wr` says that this cycle's operation writes this timer's period (R79, R85). -/
def timerNext (wr : Bool) (t : Timer) : Word :=
  if wr then 0#32
  else if !timerRuns t then 0#32
  else if timerTick t then 0#32
  else t.cnt + 1#32

/-- The fast timer (R80). -/
def fastTimer (r : Regs) : Timer := ⟨r.ctrl.getLsbD 0, r.fastPeriod, r.fastCnt⟩

/-- The slow timer (R81). -/
def slowTimer (r : Regs) : Timer := ⟨r.ctrl.getLsbD 1, r.slowPeriod, r.slowCnt⟩

/-- `fast_tick` (R80). -/
def fastTick (r : Regs) : Bool := timerTick (fastTimer r)

/-- `slow_tick` (R81). -/
def slowTick (r : Regs) : Bool := timerTick (slowTimer r)

end Sys2Proof.Machine
end

