-- ==== Sys2Proof/Machine/Ops.lean ====
section
/-!
DEFINITION. One clock cycle as an operation shared by all meanings: what the port asks for, merged with what the
block does in every cycle (20_memory.md rule R36; 43_port_and_cycle.md rule R100), the reset cycle (70_reset_and_hazards.md
rules R119 and R120), and the edge that ends a cycle (00_scope.md rule R8).
The block takes no exception and returns from none (60_exceptions.md rules R105, R110, R111), so there is no such
operation here.
-/

namespace Sys2Proof.Machine

/-- What the port's operation contributes to its cycle: the response, the pending bits to clear, and at most one
register write (R36, R46). -/
structure PortAct where
  /-- `rdata_o` (R49). -/
  rdata : Word := 0#32
  /-- `clr` of R72. -/
  clr : Mask := 0x00#8
  /-- The write of `CTRL` (R89). -/
  ctrl : Option Enables := none
  /-- The write of `FAST_PERIOD`, which also clears `FAST_CNT` (R91). -/
  fastPeriod : Option Word := none
  /-- The write of `SLOW_PERIOD`, which also clears `SLOW_CNT` (R93). -/
  slowPeriod : Option Word := none
  deriving DecidableEq, Repr

/-- The Debouncer's registers after this cycle: a `DEB_TICK` in a cycle with `fast_tick`, else unchanged (R57). -/
def debNext (s : State) : Deb :=
  if fastTick s.regs then debTick (debOf s.regs) (logicalSample s.polarity (sampledRaw s)) else debOf s.regs

/-- `press` of this cycle: that of the `DEB_TICK`, and 0 in a cycle without one (R57, R70). -/
def pressNow (s : State) : Mask :=
  if fastTick s.regs then pressMask (debOf s.regs) (logicalSample s.polarity (sampledRaw s)) else 0x00#8

/-- The registers after a cycle with `rst_i = 0` (R100, merges of R36). -/
def nextRegs (p : PortAct) (s : State) : Regs where
  cntLo := (debNext s).lo
  cntHi := (debNext s).hi
  state := (debNext s).state
  pending := pendingNext s.regs.pending p.clr (pressNow s)
  ctrl := p.ctrl.getD s.regs.ctrl
  fastPeriod := p.fastPeriod.getD s.regs.fastPeriod
  slowPeriod := p.slowPeriod.getD s.regs.slowPeriod
  fastCnt := timerNext p.fastPeriod.isSome (fastTimer s.regs)
  slowCnt := timerNext p.slowPeriod.isSome (slowTimer s.regs)
  frc := s.regs.frc + 1#32

/-- The outputs of a cycle with `rst_i = 0`, from pre-edge state (R82, R100). -/
def cycleOutputs (p : PortAct) (s : State) : Outputs where
  rdata := p.rdata
  fastTick := fastTick s.regs
  slowTick := slowTick s.regs

/-- The edge that ends a cycle: the registers take their next values together, the outputs of the cycle are recorded,
and the outside world's next inputs arrive (R7, R8; log entries 1, 2, 5, 6). -/
def endCycle (regs : Regs) (out : Outputs) (s : State) : State where
  regs := regs
  pins := s.coming.headD Inputs.idle
  coming := s.coming.tail
  out := out
  polarity := s.polarity
  draws := s.draws + 1

/-- A cycle with `rst_i = 0` that performs the port's operation (R99, R100). -/
def runCycle (p : PortAct) (s : State) : Host.Outcome State Fault Refusal :=
  .next (endCycle (nextRegs p s) (cycleOutputs p s) s)

/-- A cycle with `rst_i = 1`: no operation, tick or count, outputs 0, and every register takes its reset value (R119,
R120). -/
def resetCycle (s : State) : Host.Outcome State Fault Refusal :=
  .next (endCycle Regs.reset Outputs.reset s)

/-- The inputs `now` in the current cycle and `later` in the following ones (log entry 1). -/
def State.present (s : State) (now : Inputs) (later : List Inputs) : State :=
  { s with pins := now, coming := later }

end Sys2Proof.Machine
end

