-- ==== Sys2Proof/Machine/EdgeEvent.lean ====
section
/-!
DEFINITION. `CHKCLR`, the block's one atomic read-modify-write (41_edge_event_store.md rules R71 and R72; 20_memory.md
rule R39).
-/

namespace Sys2Proof.Machine

/-- `CHKCLR mask`: answers the selected pending bits and clears exactly them; a press of the same cycle is neither
answered nor lost (R71, R72). -/
def execChkclr (mask : Mask) (s : State) : Host.Outcome State Fault Refusal :=
  runCycle { rdata := zext32 (pendingHits s.regs.pending mask), clr := mask } s

end Sys2Proof.Machine
end

