-- ==== Sys2Proof/Machine/Idle.lean ====
section
/-!
DEFINITION. `NOP` and the reserved opcodes (43_port_and_cycle.md rules R97 and R98; 30_encoding.md rule R47).
-/

namespace Sys2Proof.Machine

/-- `NOP`: response 0, nothing written by the port; the rest of the cycle goes on (R97). -/
def execNop (s : State) : Host.Outcome State Fault Refusal := runCycle {} s

/-- Reserved opcode 0x9: as `NOP`, silently (R98). -/
def execRsvd9 (s : State) : Host.Outcome State Fault Refusal := runCycle {} s

/-- Reserved opcodes 0xA and 0xB: as `NOP`, silently (R98). -/
def execRsvdAB (_op : Op) (s : State) : Host.Outcome State Fault Refusal := runCycle {} s

/-- Reserved opcodes 0xC to 0xF: as `NOP`, silently (R98). -/
def execRsvdCF (_op : Op) (s : State) : Host.Outcome State Fault Refusal := runCycle {} s

end Sys2Proof.Machine
end

