-- ==== Sys2Proof/Machine/TickRegs.lean ====
section
/-!
DEFINITION. The seven operations on the tick generator's registers (42_tick_generator.md rules R88 to R94).
-/

namespace Sys2Proof.Machine

/-- `RDCTRL`: `rdata_o = zext_32(CTRL)` (R88). -/
def execRdctrl (s : State) : Host.Outcome State Fault Refusal := runCycle { rdata := zext32 s.regs.ctrl } s

/-- `WRCTRL en`: `CTRL <- en`, response 0 (R89). -/
def execWrctrl (en : Enables) (s : State) : Host.Outcome State Fault Refusal := runCycle { ctrl := some en } s

/-- `RDFP`: `rdata_o = FAST_PERIOD` (R90). -/
def execRdfp (s : State) : Host.Outcome State Fault Refusal := runCycle { rdata := s.regs.fastPeriod } s

/-- `WRFP val`: `FAST_PERIOD <- val`, `FAST_CNT <- 0`, response 0 (R91). -/
def execWrfp (val : Word) (s : State) : Host.Outcome State Fault Refusal := runCycle { fastPeriod := some val } s

/-- `RDSP`: `rdata_o = SLOW_PERIOD` (R92). -/
def execRdsp (s : State) : Host.Outcome State Fault Refusal := runCycle { rdata := s.regs.slowPeriod } s

/-- `WRSP val`: `SLOW_PERIOD <- val`, `SLOW_CNT <- 0`, response 0 (R93). -/
def execWrsp (val : Word) (s : State) : Host.Outcome State Fault Refusal := runCycle { slowPeriod := some val } s

/-- `RDFRC`: `rdata_o = FRC`, the pre-edge value (R94). -/
def execRdfrc (s : State) : Host.Outcome State Fault Refusal := runCycle { rdata := s.regs.frc } s

end Sys2Proof.Machine
end

