-- ==== Sys2Proof/Machine/Dispatch.lean ====
section
/-!
DEFINITION. One arm per operation: the cycle with `rst_i = 0` in which the port carries it (43_port_and_cycle.md rules
R99 and R100). The reset line is read by `step`, before any operation (30_encoding.md rule R54; log entry 13).
-/

namespace Sys2Proof.Machine

/-- What a cycle with `rst_i = 0` does when the port carries the operation `i`. -/
def exec (i : Instr) (s : State) : Host.Outcome State Fault Refusal :=
  match i with
  | .nop => Sys2Proof.Machine.execNop s
  | .chkclr mask => Sys2Proof.Machine.execChkclr mask s
  | .rdctrl => Sys2Proof.Machine.execRdctrl s
  | .wrctrl en => Sys2Proof.Machine.execWrctrl en s
  | .rdfp => Sys2Proof.Machine.execRdfp s
  | .wrfp val => Sys2Proof.Machine.execWrfp val s
  | .rdsp => Sys2Proof.Machine.execRdsp s
  | .wrsp val => Sys2Proof.Machine.execWrsp val s
  | .rdfrc => Sys2Proof.Machine.execRdfrc s
  | .rsvd9 => Sys2Proof.Machine.execRsvd9 s
  | .rsvdAB op => Sys2Proof.Machine.execRsvdAB op s
  | .rsvdCF op => Sys2Proof.Machine.execRsvdCF op s

end Sys2Proof.Machine
end

