-- ==== Sys2Proof/Machine/Step.lean ====
section
/-!
DEFINITION. One step is one clock cycle (00_scope.md rule R8; 43_port_and_cycle.md rule R100): a reset cycle if
`rst_i = 1`, else the cycle of the operation on the port (30_encoding.md rule R54).
-/

namespace Sys2Proof.Machine

/-- One clock cycle. -/
def step (s : State) : Host.Outcome State Fault Refusal :=
  if s.pins.rst then resetCycle s else exec (presented s) s

/-- `s` with the command word `w` (bit 0 is `CMD[0]`) on the port in this cycle and `rst_i = 0`, so that the next step
performs it (R43, R54; log entry 8). -/
def State.withFetchWord (s : State) (_nbits w : Nat) : State :=
  { s with
    pins :=
      { s.pins with
        rst := false
        op := opField (BitVec.ofNat 36 w)
        wdata := wdataField (BitVec.ofNat 36 w) } }

end Sys2Proof.Machine
end

