-- ==== Sys2Proof/Machine/Trace.lean ====
section
/-!
DEFINITION. Programs as traces, one line per cycle (30_encoding.md rules R51 and R52): how a trace becomes the inputs
of a run, and whether its expected outputs are those of the machine.
-/

namespace Sys2Proof.Machine

/-- One line of a trace (R51): the operation, `raw=` (absent where it equals the previous line's), `rst`, and the
expected outputs of the cycle. -/
structure TraceLine where
  instr : Instr
  raw : Option Mask
  rst : Bool
  expect : Outputs
  deriving DecidableEq, Repr

/-- The inputs of a cycle with stated `raw_i` that carries the operation `i`, encoded as R51 says. -/
def inputsOf (i : Instr) (raw : Mask) (rst : Bool) : Inputs where
  rst := rst
  raw := raw
  rawFree := 0x00#8
  op := opcode i
  wdata := operandWord i

/-- The inputs of a trace; `prev` is the level that a first line without `raw=` repeats (R51; log entry 14). -/
def traceInputs (prev : Mask) : List TraceLine → List Inputs
  | [] => []
  | l :: ls => inputsOf l.instr (l.raw.getD prev) l.rst :: traceInputs (l.raw.getD prev) ls

/-- The inputs of a sequence of pseudo-operations, `raw_i` the same in every cycle (R52). -/
def pseudoInputs (raw : Mask) (ps : List Pseudo) : List Inputs :=
  (ps.flatMap Pseudo.expand).map fun i => inputsOf i raw false

/-- Whether the machine's outputs in the cycles of a trace are the expected ones (R51). -/
def traceHolds (s : State) : List TraceLine → Bool
  | [] => true
  | l :: ls =>
    match step s with
    | .next t => t.out == l.expect && traceHolds t ls
    | .fault _ => false
    | .refused _ => false

end Sys2Proof.Machine
end

