-- ==== Sys2Proof/Machine/Events.lean ====
section
/-!
DEFINITION. The event-level reading of the Debouncer and the Edge Event Store (43_port_and_cycle.md rule R102): runs as
sequences of ticks and calls, without clock cycles.
-/

namespace Sys2Proof.Machine

/-- An event of R102. -/
inductive Event where
  /-- `TICK(s)`: a fast tick with logical sample `s`. -/
  | tick (s : Mask)
  /-- `CALL(mask)`: a `check_and_clear`. -/
  | call (mask : Mask)
  deriving DecidableEq, Repr

/-- The registers the event level speaks of (R102). -/
structure Filter where
  deb : Deb
  pending : Mask
  deriving DecidableEq, Repr

/-- The event level's part of the registers. -/
def filterOf (r : Regs) : Filter := ⟨debOf r, r.pending⟩

/-- The registers after one event (R102). -/
def eventNext (f : Filter) : Event → Filter
  | .tick s => ⟨debTick f.deb s, f.pending ||| pressMask f.deb s⟩
  | .call mask => ⟨f.deb, f.pending &&& ~~~mask⟩

/-- The responses of one event: a call has one, a tick none (R102). -/
def eventResponse (f : Filter) : Event → List Mask
  | .tick _ => []
  | .call mask => [f.pending &&& mask]

/-- The registers after a sequence of events. -/
def runEvents (f : Filter) : List Event → Filter
  | [] => f
  | e :: es => runEvents (eventNext f e) es

/-- The responses of a sequence of events, first first. -/
def eventResponses (f : Filter) : List Event → List Mask
  | [] => []
  | e :: es => eventResponse f e ++ eventResponses (eventNext f e) es

/-- The call of a cycle that carries the operation `i` (R102). -/
def callEvents (i : Instr) : List Event :=
  match i with
  | .chkclr mask => [.call mask]
  | _ => []

/-- The tick of this cycle (R102). -/
def tickEvents (s : State) : List Event :=
  if fastTick s.regs then [.tick (logicalSample s.polarity (sampledRaw s))] else []

/-- The events of a cycle with `rst_i = 0`: first its call, then its tick (R102). -/
def cycleEvents (s : State) : List Event := callEvents (presented s) ++ tickEvents s

end Sys2Proof.Machine
end

