-- ==== Sys2Proof/Machine/WholeCycle.lean ====
section
/-!
DEFINITION. The whole-cycle function of 43_port_and_cycle.md rule R100, transcribed line by line on the port's numbers.
It stands beside the model, which goes through decoder and meanings; no step calls it. Statements say that the two agree.
-/

namespace Sys2Proof.Machine

/-- R100: next registers and outputs from the registers, the inputs of the cycle and the parameter. -/
def wholeCycle (polarity : Mask) (S : Regs) (rst : Bool) (raw : Mask) (op : Op) (wdata : Word) : Regs × Outputs :=
  if rst then (Regs.reset, ⟨0#32, false, false⟩)
  else
    let fastTick := S.ctrl.getLsbD 0 && S.fastPeriod != 0#32 && decide (S.fastPeriod - 1#32 ≤ S.fastCnt)
    let slowTick := S.ctrl.getLsbD 1 && S.slowPeriod != 0#32 && decide (S.slowPeriod - 1#32 ≤ S.slowCnt)
    let rdata : Word :=
      if op = 0x1#4 then (S.pending &&& wdata.extractLsb' 0 8).setWidth 32
      else if op = 0x2#4 then S.ctrl.setWidth 32
      else if op = 0x4#4 then S.fastPeriod
      else if op = 0x6#4 then S.slowPeriod
      else if op = 0x8#4 then S.frc
      else 0#32
    let sample := ~~~(raw ^^^ polarity)
    let deb := if fastTick then debTick (debOf S) sample else debOf S
    let press := if fastTick then pressMask (debOf S) sample else 0x00#8
    let clr := if op = 0x1#4 then wdata.extractLsb' 0 8 else 0x00#8
    ({ cntLo := deb.lo
       cntHi := deb.hi
       state := deb.state
       pending := (S.pending &&& ~~~clr) ||| press
       ctrl := if op = 0x3#4 then wdata.extractLsb' 0 2 else S.ctrl
       fastPeriod := if op = 0x5#4 then wdata else S.fastPeriod
       slowPeriod := if op = 0x7#4 then wdata else S.slowPeriod
       fastCnt :=
         if op = 0x5#4 then 0#32
         else if !(S.ctrl.getLsbD 0 && S.fastPeriod != 0#32) then 0#32
         else if fastTick then 0#32
         else S.fastCnt + 1#32
       slowCnt :=
         if op = 0x7#4 then 0#32
         else if !(S.ctrl.getLsbD 1 && S.slowPeriod != 0#32) then 0#32
         else if slowTick then 0#32
         else S.slowCnt + 1#32
       frc := S.frc + 1#32 },
     ⟨rdata, fastTick, slowTick⟩)

end Sys2Proof.Machine
end

