-- ==== Sys2Proof/Safety.lean ====
section
/-!
DEFINITION. The terms in which claims about runs are stated: the invariant of the reachable state (10_state.md rule
R22) and the states of a run, cycle by cycle (43_port_and_cycle.md rule R104).
-/

namespace Sys2Proof.Machine

/-- No debounce counter holds 0 (R22 (a)). -/
abbrev countersLive (r : Regs) : Prop := r.cntLo ||| r.cntHi = 0xFF#8

/-- A timer's counter is below its period, and 0 where the period is 0 (R22 (b)). -/
abbrev timerBounded (t : Timer) : Prop := if t.period = 0#32 then t.cnt = 0#32 else t.cnt < t.period

/-- The invariant of the reachable state (R22). -/
abbrev regsInv (r : Regs) : Prop := countersLive r ∧ timerBounded (fastTimer r) ∧ timerBounded (slowTimer r)

/-- The state after one step; every step gives a next state, so the other case does not arise. -/
def after (s : State) : State :=
  match step s with
  | .next t => t
  | .fault _ => s
  | .refused _ => s

/-- The state at the start of cycle `k` of the run from `s`, whose own cycle is cycle 0 (R8). -/
def stateAt (s : State) : Nat → State
  | 0 => s
  | k + 1 => after (stateAt s k)

/-- The outputs in cycle `k` of the run from `s`. -/
def outAt (s : State) (k : Nat) : Outputs := (stateAt s (k + 1)).out

/-- Whether the operation on the port writes `FAST_PERIOD` (R91). -/
def writesFastPeriod (s : State) : Bool :=
  match presented s with
  | .wrfp _ => true
  | _ => false

/-- Whether the operation on the port writes `SLOW_PERIOD` (R93). -/
def writesSlowPeriod (s : State) : Bool :=
  match presented s with
  | .wrsp _ => true
  | _ => false

/-- Whether the operation on the port writes `CTRL` (R89). -/
def writesCtrl (s : State) : Bool :=
  match presented s with
  | .wrctrl _ => true
  | _ => false

/-- The channels that a `CHKCLR` on the port selects; none for any other operation (R71). -/
def selectedChannels (s : State) : Mask :=
  match presented s with
  | .chkclr mask => mask
  | _ => 0x00#8

/-- The logical sample of channel `i` in this cycle (R56). -/
def sampledLevel (s : State) (i : Nat) : Bool := (logicalSample s.polarity (sampledRaw s)).getLsbD i

/-- The Debouncer after a sequence of ticks with the given logical samples. -/
def runTicks (d : Deb) : List Mask → Deb
  | [] => d
  | m :: ms => runTicks (debTick d m) ms

/-- The events of the first `n` cycles of the run from `s` (R102). -/
def eventsUpTo (s : State) (n : Nat) : List Event := (List.range n).flatMap fun k => cycleEvents (stateAt s k)

/-- The `CHKCLR` responses of the first `n` cycles of the run from `s`, first first (R102). -/
def responsesUpTo (s : State) (n : Nat) : List Word :=
  (List.range n).flatMap fun k =>
    match presented (stateAt s k) with
    | .chkclr _ => [(outAt s k).rdata]
    | _ => []

end Sys2Proof.Machine
end

