-- ==== Sys2Proof/Certificates/Slice0/Obligations.lean ====
section
/-!
DEFINITION. The statements for the provers, taken from the numbered rules of spec/. Every statement is about every
state, operand and input, unless it says otherwise. No statement rests on the value of POLARITY or of a free draw.
-/

open Sys2Proof Sys2Proof.Machine

/-! ## Encoding -/

/-- Decoding the word of a well-formed operation gives it back, whatever its operand (R43 to R46). -/
def Obligations.DecodeOfEncode : Prop :=
  ∀ i : Instr, i.wellFormed = true → decode (encode i) = i

/-- Every command word decodes to a well-formed operation, and encoding that gives the word back with its ignored bits
cleared (R44, R46, R51). -/
def Obligations.EncodeOfDecode : Prop :=
  ∀ cmd : Cmd,
    (decode cmd).wellFormed = true ∧
    encode (decode cmd) = cmdOf (opField cmd) (wdataField cmd &&& (decode cmd).format.usedBits)

/-- R48: the bits of `wdata_i` that a format does not use change neither the operation nor anything a step does, and no
operand value is illegal. -/
def Obligations.IgnoredBitsHaveNoEffect : Prop :=
  (∀ (op : Op) (w v : Word),
    w &&& (decodePorts op w).format.usedBits = v &&& (decodePorts op w).format.usedBits →
      decodePorts op w = decodePorts op v) ∧
  (∀ (s : State) (v : Word),
    s.pins.wdata &&& (presented s).format.usedBits = v &&& (presented s).format.usedBits →
      step { s with pins := { s.pins with wdata := v } } = step s) ∧
  (∀ (op : Op) (w : Word), (decodePorts op w).wellFormed = true)

/-- R55: exactly one row of the opcode table selects each command word, and it is the row of the operation that the
decoder reads. -/
def Obligations.ExactlyOneTableRow : Prop :=
  ∀ cmd : Cmd, ∃ row : OpcodeRow,
    opcodeTable.filter (fun r => rowSelects r cmd) = [row] ∧
    row.mnemonic = (decode cmd).mnemonic ∧ row.format = (decode cmd).format

/-- R45, R46: what each value of `op_i` selects, and where its operand comes from. -/
def Obligations.OpcodeMapAndOperands : Prop :=
  ∀ w : Word,
    decodePorts 0x0#4 w = .nop ∧
    (∃ m, decodePorts 0x1#4 w = .chkclr m ∧ ∀ i < 8, m.getLsbD i = w.getLsbD i) ∧
    decodePorts 0x2#4 w = .rdctrl ∧
    (∃ e, decodePorts 0x3#4 w = .wrctrl e ∧ ∀ i < 2, e.getLsbD i = w.getLsbD i) ∧
    decodePorts 0x4#4 w = .rdfp ∧ decodePorts 0x5#4 w = .wrfp w ∧
    decodePorts 0x6#4 w = .rdsp ∧ decodePorts 0x7#4 w = .wrsp w ∧
    decodePorts 0x8#4 w = .rdfrc ∧ decodePorts 0x9#4 w = .rsvd9 ∧
    (∀ op ∈ [0xA#4, 0xB#4], decodePorts op w = .rsvdAB op) ∧
    (∀ op ∈ [0xC#4, 0xD#4, 0xE#4, 0xF#4], decodePorts op w = .rsvdCF op)

/-- Command words of 95_test_vectors.md Q1 decode as that table says. -/
def Obligations.DecodedCommandWords : Prop :=
  decode 0x0DEADBEEF#36 = .nop ∧ decode 0x1FFFFFF07#36 = .chkclr 0x07#8 ∧ decode 0x200000000#36 = .rdctrl ∧
  decode 0x3FFFFFFFE#36 = .wrctrl 2#2 ∧ decode 0x400000000#36 = .rdfp ∧ decode 0x500027100#36 = .wrfp 160000#32 ∧
  decode 0x600000000#36 = .rdsp ∧ decode 0x700000005#36 = .wrsp 5#32 ∧ decode 0x800000000#36 = .rdfrc ∧
  decode 0x900000000#36 = .rsvd9 ∧ decode 0xA12345678#36 = .rsvdAB 0xA#4 ∧ decode 0xFFFFFFFFF#36 = .rsvdCF 0xF#4

/-! ## A step -/

/-- R54: with `rst_i = 1` the operation is ignored; else a step performs the operation decoded from `op_i` and
`wdata_i`, and nothing else takes part in decoding. -/
def Obligations.StepRunsPresentedOperation : Prop :=
  (∀ (s : State) (i : Instr), s.pins.rst = false → decode (cmdOf s.pins.op s.pins.wdata) = i →
    i.wellFormed = true ∧ step s = exec i s) ∧
  (∀ (s : State) (op : Op) (w : Word), s.pins.rst = true →
    step { s with pins := { s.pins with op := op, wdata := w } } = step s)

/-- What the model adds around every step and every operation, its own choice (log entries 1, 2, 3 and 5): the next inputs arrive, or the
idle ones when no more are given; the parameter stays; the index of the free draws advances. -/
def Obligations.NextInputsArrive : Prop :=
  ∀ s t : State, (step s = .next t ∨ ∃ i, exec i s = .next t) →
    t.pins = s.coming.headD Inputs.idle ∧ t.coming = s.coming.tail ∧ t.polarity = s.polarity ∧ t.draws = s.draws + 1

/-- A command word placed by `State.withFetchWord` is what the next step runs (log entry 8). -/
def Obligations.FetchWordIsRun : Prop :=
  ∀ (s : State) (nbits w : Nat), w < 2 ^ 36 → ∃ i : Instr,
    decodeTableWord nbits w = some i ∧ step (s.withFetchWord nbits w) = exec i (s.withFetchWord nbits w)

/-- R100, R105: the step function is total; no state, input or operation ends in a fault or a refusal. -/
def Obligations.EveryStepCompletes : Prop :=
  (∀ s : State, ∃ t, step s = .next t) ∧ (∀ (i : Instr) (s : State), ∃ t, exec i s = .next t)

/-- R100: a step, through decoder and meanings, is the whole-cycle function on the port's numbers. The sample is
`raw_i` itself where all of its bits have a stated level. -/
def Obligations.StepIsWholeCycle : Prop :=
  ∀ s : State, (∃ t, step s = .next t ∧
      (t.regs, t.out) = wholeCycle s.polarity s.regs s.pins.rst (sampledRaw s) s.pins.op s.pins.wdata) ∧
    (s.pins.rawFree = 0x00#8 → sampledRaw s = s.pins.raw)

/-- R101: what `raw_i`, the port's operation and `rst_i` can influence. -/
def Obligations.WhatInputsInfluence : Prop :=
  (∀ (s : State) (raw free : Mask),
    (after { s with pins := { s.pins with raw := raw, rawFree := free } }).out = (after s).out ∧
    (fastTick s.regs = false → after { s with pins := { s.pins with raw := raw, rawFree := free } } = after s)) ∧
  (∀ (s : State) (op : Op) (w : Word),
    let t := after s
    let u := after { s with pins := { s.pins with op := op, wdata := w } }
    u.regs.cntLo = t.regs.cntLo ∧ u.regs.cntHi = t.regs.cntHi ∧ u.regs.state = t.regs.state ∧ u.regs.frc = t.regs.frc ∧
    u.out.fastTick = t.out.fastTick ∧ u.out.slowTick = t.out.slowTick) ∧
  (∀ (s : State) (raw free : Mask) (op : Op) (w : Word) (r : Regs), s.pins.rst = true →
    after { s with regs := r, pins := ⟨true, raw, free, op, w⟩ } = after s)

/-- R36: who writes what in a cycle. `CTRL` and the periods change only by reset or their own write operation, the
Debouncer's registers only by reset or a `DEB_TICK`; a write of a period wins over its timer's counting, and the ticks of
the cycle come from the enables, periods and counters of before. -/
def Obligations.RegisterWriters : Prop :=
  ∀ s t : State, step s = .next t →
    (t.regs.ctrl ≠ s.regs.ctrl → s.pins.rst = true ∨ s.pins.op = 0x3#4) ∧
    (t.regs.fastPeriod ≠ s.regs.fastPeriod → s.pins.rst = true ∨ s.pins.op = 0x5#4) ∧
    (t.regs.slowPeriod ≠ s.regs.slowPeriod → s.pins.rst = true ∨ s.pins.op = 0x7#4) ∧
    (debOf t.regs ≠ debOf s.regs → s.pins.rst = true ∨ t.out.fastTick = true) ∧
    (s.pins.op = 0x5#4 → t.regs.fastCnt = 0#32) ∧ (s.pins.op = 0x7#4 → t.regs.slowCnt = 0#32) ∧
    (s.pins.rst = false → t.out.fastTick = timerTick (fastTimer s.regs) ∧ t.out.slowTick = timerTick (slowTimer s.regs))

/-! ## Reset -/

/-- R21, R120: a reset cycle, from any state, gives every register its reset value and forces the outputs to 0. -/
def Obligations.ResetCycleValues : Prop :=
  ∀ s : State, s.pins.rst = true → ∃ t, step s = .next t ∧
    t.regs.cntLo = 0xFF#8 ∧ t.regs.cntHi = 0xFF#8 ∧ t.regs.state = 0x00#8 ∧ t.regs.pending = 0x00#8 ∧
    t.regs.ctrl = 0b00#2 ∧ t.regs.fastPeriod = 0#32 ∧ t.regs.slowPeriod = 0#32 ∧ t.regs.fastCnt = 0#32 ∧
    t.regs.slowCnt = 0#32 ∧ t.regs.frc = 0#32 ∧
    t.out.rdata = 0#32 ∧ t.out.fastTick = false ∧ t.out.slowTick = false

/-- R119: reset may be held for any number of cycles, one is enough, from any state and under any inputs, and each time
leaves the registers of `State.reset`; the first cycle after it counts from `FRC = 0`. -/
def Obligations.ResetHeldAnyNumberOfCycles : Prop :=
  ∀ (s : State) (n : Nat), (∀ k ≤ n, (stateAt s k).pins.rst = true) →
    (stateAt s (n + 1)).regs = State.reset.regs ∧ ∀ k ≤ n, outAt s k = Outputs.reset

/-- R123: after reset the block is inert. As long as no `WRCTRL` is performed no timer ticks and only `FRC` and the
period registers can change, whatever the inputs. -/
def Obligations.InertUntilEnabled : Prop :=
  ∀ (now : Inputs) (later : List Inputs) (n : Nat),
    let s := State.reset.present now later
    (∀ k < n, (stateAt s k).pins.rst = false ∧ writesCtrl (stateAt s k) = false) →
      (stateAt s n).regs = { Regs.reset with
        fastPeriod := (stateAt s n).regs.fastPeriod
        slowPeriod := (stateAt s n).regs.slowPeriod
        frc := BitVec.ofNat 32 n } ∧
      ∀ k < n, (outAt s k).fastTick = false ∧ (outAt s k).slowTick = false

/-- R123, R52: the boot sequence `SETPERIODS f, p` right after reset leaves both periods stored, both timers enabled at
the start of a full period, and everything else as reset left it but `FRC`. -/
def Obligations.BootSequence : Prop :=
  ∀ (f p : Word) (raw : Mask) (later : List Inputs),
    let ins := pseudoInputs raw [.setperiods f p]
    let s := State.reset.present (ins.headD Inputs.idle) (ins.tail ++ later)
    (stateAt s 3).regs = { Regs.reset with ctrl := 3#2, fastPeriod := f, slowPeriod := p, frc := 3#32 }

/-! ## Invariant -/

/-- R22, as an invariant that every step keeps: no debounce counter holds 0, and each timer's counter is below its
period (0 for period 0). -/
def Obligations.StepKeepsInvariant : Prop :=
  ∀ s t : State, regsInv s.regs → step s = .next t → regsInv t.regs

/-- R22 holds right after reset. -/
def Obligations.ResetMeetsInvariant : Prop := regsInv State.reset.regs

/-- R22, lane by lane and in numbers: from the reset state, under every input sequence. -/
def Obligations.ReachableCounters : Prop :=
  ∀ (now : Inputs) (later : List Inputs) (n : Nat),
    let r := (stateAt (State.reset.present now later) n).regs
    (∀ i < 8, 1 ≤ (laneCount (debOf r) i).toNat ∧ (laneCount (debOf r) i).toNat ≤ 3 ∧
      (r.cntLo.getLsbD i || r.cntHi.getLsbD i) = true) ∧
    (r.fastPeriod ≠ 0#32 → r.fastCnt.toNat < r.fastPeriod.toNat) ∧ (r.fastPeriod = 0#32 → r.fastCnt = 0#32) ∧
    (r.slowPeriod ≠ 0#32 → r.slowCnt.toNat < r.slowPeriod.toNat) ∧ (r.slowPeriod = 0#32 → r.slowCnt = 0#32) ∧
    ∀ i, 2 ≤ i → r.ctrl.getLsbD i = false

/-! ## The Debouncer -/

/-- R56: the logical sample of a cycle, bit by bit and for the two uniform polarities, taken from this cycle's `raw_i`.
Bits of no stated level (U2) are left out. -/
def Obligations.LogicalSampleBits : Prop :=
  (∀ (s : State) (i : Nat), i < 8 → s.pins.rawFree.getLsbD i = false →
    ((logicalSample s.polarity (sampledRaw s)).getLsbD i = true ↔ s.pins.raw.getLsbD i = s.polarity.getLsbD i)) ∧
  (∀ s : State, s.pins.rawFree = 0x00#8 →
    logicalSample s.polarity (sampledRaw s) = ~~~(s.pins.raw ^^^ s.polarity) ∧
    (s.polarity = 0xFF#8 → logicalSample s.polarity (sampledRaw s) = s.pins.raw) ∧
    (s.polarity = 0x00#8 → logicalSample s.polarity (sampledRaw s) = ~~~s.pins.raw))

/-- R57: `DEB_TICK` runs exactly in the cycles with `rst_i = 0` and `fast_tick`, on this cycle's sample; in the other
cycles without reset the Debouncer keeps its registers and no pending bit is set; in a reset cycle it does not run. -/
def Obligations.DebTickTrigger : Prop :=
  ∀ s : State, ∃ t, step s = .next t ∧
    (s.pins.rst = false → fastTick s.regs = true →
      debOf t.regs = debTick (debOf s.regs) (logicalSample s.polarity (sampledRaw s)) ∧
      t.regs.pending &&& pressMask (debOf s.regs) (logicalSample s.polarity (sampledRaw s)) =
        pressMask (debOf s.regs) (logicalSample s.polarity (sampledRaw s))) ∧
    (s.pins.rst = false → fastTick s.regs = false →
      debOf t.regs = debOf s.regs ∧ t.regs.pending &&& ~~~s.regs.pending = 0x00#8) ∧
    (s.pins.rst = true → debOf t.regs = debOf Regs.reset ∧ t.regs.pending = 0x00#8)

/-- R58 to R62: one lane of a tick, in numbers. An agreeing lane reloads its counter to 3; a disagreeing one counts
down, and from 1 or 0 it flips, reloads to 3, and reports a press iff it becomes pressed. -/
def Obligations.LaneOfDebTick : Prop :=
  ∀ (d : Deb) (sample : Mask) (i : Nat), i < 8 →
    let x := (disagreement d sample).getLsbD i
    let c := (laneCount d i).toNat
    let c' := (laneCount (debTick d sample) i).toNat
    let st := d.state.getLsbD i
    let st' := (debTick d sample).state.getLsbD i
    let press := (pressMask d sample).getLsbD i
    (x = true ↔ sample.getLsbD i ≠ st) ∧
    (x = false → c' = 3 ∧ st' = st ∧ press = false) ∧
    (x = true → 2 ≤ c → c' = c - 1 ∧ st' = st ∧ press = false) ∧
    (x = true → c ≤ 1 → c' = 3 ∧ st' = sample.getLsbD i ∧ st' ≠ st ∧ press = sample.getLsbD i)

/-- R64: the lane table is the bit-sliced form, for every counter value. -/
def Obligations.BitSlicedForm : Prop :=
  ∀ (d : Deb) (sample : Mask),
    flipMask d sample = slicedFlip d sample ∧
    (debTick d sample).hi = slicedHi d sample ∧ (debTick d sample).lo = slicedLo d sample

/-- R63: a lane reads and writes its own bits only, and all eight lanes are alike: lane `i` of one tick and lane `j` of
another that start from equal bits end in equal bits. -/
def Obligations.LanesAreIndependentAndAlike : Prop :=
  ∀ (d e : Deb) (m n : Mask) (i j : Nat), i < 8 → j < 8 →
    m.getLsbD i = n.getLsbD j → d.state.getLsbD i = e.state.getLsbD j →
    d.hi.getLsbD i = e.hi.getLsbD j → d.lo.getLsbD i = e.lo.getLsbD j →
      (debTick d m).state.getLsbD i = (debTick e n).state.getLsbD j ∧
      (debTick d m).hi.getLsbD i = (debTick e n).hi.getLsbD j ∧
      (debTick d m).lo.getLsbD i = (debTick e n).lo.getLsbD j ∧
      (pressMask d m).getLsbD i = (pressMask e n).getLsbD j

/-- R66: a lane changes its committed state in a tick only if that tick and the two before it all sampled the level
opposite to it; one or two disagreeing samples followed by an agreeing one change nothing but the counter, which
returns to 3, and report nothing. From any Debouncer state. -/
def Obligations.GlitchRejection : Prop :=
  (∀ (d : Deb) (m₁ m₂ m₃ : Mask) (i : Nat), i < 8 →
    (runTicks d [m₁, m₂, m₃]).state.getLsbD i ≠ (runTicks d [m₁, m₂]).state.getLsbD i →
      (runTicks d [m₁, m₂]).state.getLsbD i = d.state.getLsbD i ∧ (runTicks d [m₁]).state.getLsbD i = d.state.getLsbD i ∧
      m₁.getLsbD i ≠ d.state.getLsbD i ∧ m₂.getLsbD i ≠ d.state.getLsbD i ∧ m₃.getLsbD i ≠ d.state.getLsbD i) ∧
  (∀ (d : Deb) (ms : List Mask) (m : Mask) (i : Nat), i < 8 → laneCount d i = 3#2 → ms.length ≤ 2 →
    m.getLsbD i = d.state.getLsbD i →
      laneCount (runTicks d (ms ++ [m])) i = 3#2 ∧
      (runTicks d (ms ++ [m])).state.getLsbD i = d.state.getLsbD i ∧
      (∀ k < ms.length, (pressMask (runTicks d (ms.take k)) (ms.getD k 0)).getLsbD i = false) ∧
      (pressMask (runTicks d ms) m).getLsbD i = false)

/-- R67, first part: a released lane at rest that is sampled pressed from then on reports a press on the third sample
and on no other, however long it stays pressed. -/
def Obligations.OneEventPerPress : Prop :=
  ∀ (d : Deb) (ms : List Mask) (m : Mask) (i : Nat), i < 8 → d.state.getLsbD i = false → laneCount d i = 3#2 →
    (∀ x ∈ ms, x.getLsbD i = true) → m.getLsbD i = true →
      ((pressMask (runTicks d ms) m).getLsbD i = true ↔ ms.length = 2)

/-- R67, second part: from a lane at rest and pressed, the next press needs three consecutive released samples and,
after them, three consecutive pressed samples of which the last is the tick that reports it. -/
def Obligations.NextPressNeedsRelease : Prop :=
  ∀ (d : Deb) (ms : List Mask) (m : Mask) (i : Nat), i < 8 → d.state.getLsbD i = true → laneCount d i = 3#2 →
    (pressMask (runTicks d ms) m).getLsbD i = true →
      ∃ as bs : List Mask, ∃ r₁ r₂ r₃ p₁ p₂ : Mask,
        ms = as ++ [r₁, r₂, r₃] ++ bs ++ [p₁, p₂] ∧
        r₁.getLsbD i = false ∧ r₂.getLsbD i = false ∧ r₃.getLsbD i = false ∧
        p₁.getLsbD i = true ∧ p₂.getLsbD i = true ∧ m.getLsbD i = true

/-- R136 in cycles: while the fast timer stays enabled with period `T`, whatever `WRCTRL` does to the rest, and its
period is not written, a level that channel `i` shows in `3 * T` consecutive cycles is committed at their end. From every
state. -/
def Obligations.HeldLevelIsCommitted : Prop :=
  ∀ (s : State) (T : Nat) (i : Nat) (b : Bool), i < 8 → s.regs.fastPeriod.toNat = T → T ≠ 0 →
    (∀ k < 3 * T, (stateAt s k).pins.rst = false ∧ (stateAt s k).regs.ctrl.getLsbD 0 = true ∧ writesFastPeriod (stateAt s k) = false ∧
      sampledLevel (stateAt s k) i = b) →
    (stateAt s (3 * T)).regs.state.getLsbD i = b

/-! ## The Edge Event Store -/

/-- R71: `CHKCLR mask` answers the selected pending bits of before, zero-extended, and clears exactly them; all else is
as under `NOP`. A press of the same cycle stays. -/
def Obligations.ChkclrResult : Prop :=
  (∀ w : Word, decodePorts 0x1#4 w = .chkclr (w.setWidth 8)) ∧
  ∀ (mask : Mask) (s : State), ∃ t u, exec (.chkclr mask) s = .next t ∧ exec .nop s = .next u ∧
    (∀ i < 8, t.out.rdata.getLsbD i = (s.regs.pending.getLsbD i && mask.getLsbD i)) ∧
    (∀ i, 8 ≤ i → t.out.rdata.getLsbD i = false) ∧
    (∀ i < 8, t.regs.pending.getLsbD i =
      ((s.regs.pending.getLsbD i && !mask.getLsbD i) || (pressNow s).getLsbD i)) ∧
    t = { u with
      regs := { u.regs with pending := t.regs.pending }
      out := { u.out with rdata := t.out.rdata } }

/-- R72: the next value of every pending bit in a cycle without reset, set winning over clear; a `CHKCLR` of the cycle
answers the bit of before. -/
def Obligations.PendingNextValue : Prop :=
  ∀ s : State, s.pins.rst = false → ∃ t, step s = .next t ∧ ∀ i < 8,
    t.regs.pending.getLsbD i =
      ((s.regs.pending.getLsbD i && !(s.pins.op == 0x1#4 && s.pins.wdata.getLsbD i)) || (pressNow s).getLsbD i) ∧
    (s.pins.op = 0x1#4 → s.pins.wdata.getLsbD i = true → t.out.rdata.getLsbD i = s.regs.pending.getLsbD i)

/-- R73: a pending bit is cleared only by reset or by a `CHKCLR` that selects it, and set only by a press of this
cycle's `DEB_TICK`. -/
def Obligations.OnlyTheseChangePending : Prop :=
  ∀ (s t : State) (i : Nat), i < 8 → step s = .next t →
    (s.regs.pending.getLsbD i = true → t.regs.pending.getLsbD i = false →
      s.pins.rst = true ∨ (selectedChannels s).getLsbD i = true) ∧
    (s.regs.pending.getLsbD i = false → t.regs.pending.getLsbD i = true →
      s.pins.rst = false ∧ fastTick s.regs = true ∧ (pressNow s).getLsbD i = true)

/-- R75: a second `CHKCLR m` answers 0 if no tick from the cycle of the first to the one before the second pressed a
channel of `m`. Resets in between do not matter. -/
def Obligations.SecondCallReturnsEmpty : Prop :=
  ∀ (s : State) (n : Nat) (m : Mask), s.pins.rst = false → presented s = .chkclr m →
    (∀ k ≤ n, (stateAt s k).pins.rst = false → pressNow (stateAt s k) &&& m = 0x00#8) →
    (stateAt s (n + 1)).pins.rst = false → presented (stateAt s (n + 1)) = .chkclr m →
      (outAt s (n + 1)).rdata = 0#32

/-- R77: an event stays pending across any number of cycles, until a `CHKCLR` selects it or reset. -/
def Obligations.UnselectedEventsStay : Prop :=
  ∀ (s : State) (n i : Nat), i < 8 → s.regs.pending.getLsbD i = true →
    (∀ k < n, (stateAt s k).pins.rst = false ∧ (selectedChannels (stateAt s k)).getLsbD i = false) →
    (stateAt s n).regs.pending.getLsbD i = true

/-- R74: from the cycle of a `CHKCLR` that selects a channel on, as long as no other `CHKCLR` selects it and there is no
reset, its pending bit says whether at least one press came, and no count; a `CHKCLR` then returns that bit. -/
def Obligations.EventsMerge : Prop :=
  ∀ (s : State) (n i : Nat), i < 8 → (selectedChannels s).getLsbD i = true →
    (∀ k ≤ n, (stateAt s k).pins.rst = false) →
    (∀ k ≤ n, 1 ≤ k → (selectedChannels (stateAt s k)).getLsbD i = false) →
      ((stateAt s (n + 1)).regs.pending.getLsbD i = true ↔ ∃ k ≤ n, (pressNow (stateAt s k)).getLsbD i = true) ∧
      ((stateAt s (n + 1)).pins.rst = false → (selectedChannels (stateAt s (n + 1))).getLsbD i = true →
        ((outAt s (n + 1)).rdata.getLsbD i = true ↔ ∃ k ≤ n, (pressNow (stateAt s k)).getLsbD i = true))

/-- R102: a run without reset is, for the Debouncer's registers, `PENDING` and every `CHKCLR` response, the run of its
events: cycle by cycle the call first, then the tick. -/
def Obligations.EventLevelReading : Prop :=
  ∀ (s : State) (n : Nat), (∀ k < n, (stateAt s k).pins.rst = false) →
    filterOf (stateAt s n).regs = runEvents (filterOf s.regs) (eventsUpTo s n) ∧
    responsesUpTo s n = (eventResponses (filterOf s.regs) (eventsUpTo s n)).map (fun r => zext32 r)

/-! ## The tick generator -/

/-- R78, R79: both timers' ticks and next counters in a cycle without reset, in numbers (R80 and R81 name the two
instances). -/
def Obligations.TimersTickAndCount : Prop :=
  ∀ s : State, s.pins.rst = false → ∃ t, step s = .next t ∧
    (t.out.fastTick = true ↔ s.regs.ctrl.getLsbD 0 = true ∧ s.regs.fastPeriod ≠ 0#32 ∧
      s.regs.fastPeriod.toNat - 1 ≤ s.regs.fastCnt.toNat) ∧
    t.regs.fastCnt.toNat =
      (if s.pins.op = 0x5#4 then 0
       else if ¬(s.regs.ctrl.getLsbD 0 = true ∧ s.regs.fastPeriod ≠ 0#32) then 0
       else if t.out.fastTick = true then 0
       else s.regs.fastCnt.toNat + 1) ∧
    (t.out.slowTick = true ↔ s.regs.ctrl.getLsbD 1 = true ∧ s.regs.slowPeriod ≠ 0#32 ∧
      s.regs.slowPeriod.toNat - 1 ≤ s.regs.slowCnt.toNat) ∧
    t.regs.slowCnt.toNat =
      (if s.pins.op = 0x7#4 then 0
       else if ¬(s.regs.ctrl.getLsbD 1 = true ∧ s.regs.slowPeriod ≠ 0#32) then 0
       else if t.out.slowTick = true then 0
       else s.regs.slowCnt.toNat + 1)

/-- R96: the slow timer's counter, and so whether it ticks, changes nothing in the block but itself, and no output but
`slow_tick_o`. -/
def Obligations.SlowTickHasNoInternalEffect : Prop :=
  ∀ (s : State) (cnt : Word),
    let t := after s
    let u := after { s with regs := { s.regs with slowCnt := cnt } }
    u = { t with
      regs := { t.regs with slowCnt := u.regs.slowCnt }
      out := { t.out with slowTick := u.out.slowTick } }

/-- R81: the two timers share nothing. Changing the slow timer's enable, period and counter leaves the fast timer, the
Debouncer, `PENDING` and `FRC` as they would be; and the other way round for the slow timer and `FRC`. -/
def Obligations.TimersAreIndependent : Prop :=
  ∀ (s : State) (e : Enables) (p c : Word),
    (e.getLsbD 0 = s.regs.ctrl.getLsbD 0 →
      let t := after s
      let u := after { s with regs := { s.regs with ctrl := e, slowPeriod := p, slowCnt := c } }
      fastTimer u.regs = fastTimer t.regs ∧ u.out.fastTick = t.out.fastTick ∧ debOf u.regs = debOf t.regs ∧
      u.regs.pending = t.regs.pending ∧ u.regs.frc = t.regs.frc) ∧
    (e.getLsbD 1 = s.regs.ctrl.getLsbD 1 →
      let t := after s
      let u := after { s with regs := { s.regs with ctrl := e, fastPeriod := p, fastCnt := c } }
      slowTimer u.regs = slowTimer t.regs ∧ u.out.slowTick = t.out.slowTick ∧ u.regs.frc = t.regs.frc)

/-- R86 (b): a period write in cycle 0 with the timer enabled puts the next tick in cycle `T`, not before, as long as
the timer stays enabled and its period is not written again. -/
def Obligations.TickAfterPeriodWrite : Prop :=
  ∀ (s : State) (v : Word), v ≠ 0#32 → (∀ k ≤ v.toNat, (stateAt s k).pins.rst = false) →
    (presented s = .wrfp v →
      (∀ k ≤ v.toNat, (stateAt s k).regs.ctrl.getLsbD 0 = true) →
      (∀ k < v.toNat, 1 ≤ k → writesFastPeriod (stateAt s k) = false) →
        (∀ k < v.toNat, 1 ≤ k → (outAt s k).fastTick = false) ∧ (outAt s v.toNat).fastTick = true) ∧
    (presented s = .wrsp v →
      (∀ k ≤ v.toNat, (stateAt s k).regs.ctrl.getLsbD 1 = true) →
      (∀ k < v.toNat, 1 ≤ k → writesSlowPeriod (stateAt s k) = false) →
        (∀ k < v.toNat, 1 ≤ k → (outAt s k).slowTick = false) ∧ (outAt s v.toNat).slowTick = true)

/-- R86 (c): enabling a timer of period `T` by a `WRCTRL` in cycle 0 puts its first tick in cycle `T`. -/
def Obligations.TickAfterEnable : Prop :=
  ∀ (s : State) (e : Enables) (T : Nat), T ≠ 0 → presented s = .wrctrl e →
    (∀ k ≤ T, (stateAt s k).pins.rst = false) →
    (s.regs.fastPeriod.toNat = T → s.regs.ctrl.getLsbD 0 = false →
      (∀ k ≤ T, 1 ≤ k → (stateAt s k).regs.ctrl.getLsbD 0 = true) →
      (∀ k < T, 1 ≤ k → writesFastPeriod (stateAt s k) = false) →
        (∀ k < T, (outAt s k).fastTick = false) ∧ (outAt s T).fastTick = true) ∧
    (s.regs.slowPeriod.toNat = T → s.regs.ctrl.getLsbD 1 = false →
      (∀ k ≤ T, 1 ≤ k → (stateAt s k).regs.ctrl.getLsbD 1 = true) →
      (∀ k < T, 1 ≤ k → writesSlowPeriod (stateAt s k) = false) →
        (∀ k < T, (outAt s k).slowTick = false) ∧ (outAt s T).slowTick = true)

/-- R86 (a): in steady state the ticks are exactly `T` cycles apart. -/
def Obligations.TicksOnePeriodApart : Prop :=
  ∀ (s : State) (T : Nat), T ≠ 0 → (∀ k ≤ T, (stateAt s k).pins.rst = false) →
    (s.regs.fastPeriod.toNat = T → (outAt s 0).fastTick = true →
      (∀ k ≤ T, (stateAt s k).regs.ctrl.getLsbD 0 = true) → (∀ k < T, writesFastPeriod (stateAt s k) = false) →
        (∀ k < T, 1 ≤ k → (outAt s k).fastTick = false) ∧ (outAt s T).fastTick = true) ∧
    (s.regs.slowPeriod.toNat = T → (outAt s 0).slowTick = true →
      (∀ k ≤ T, (stateAt s k).regs.ctrl.getLsbD 1 = true) → (∀ k < T, writesSlowPeriod (stateAt s k) = false) →
        (∀ k < T, 1 ≤ k → (outAt s k).slowTick = false) ∧ (outAt s T).slowTick = true)

/-- R87: `FRC` counts the cycles without reset modulo 2^32, whatever is performed; reset clears it; from reset it is the
cycle number. -/
def Obligations.FrcCountsCycles : Prop :=
  (∀ (s t : State), s.pins.rst = true → step s = .next t → t.regs.frc = 0#32) ∧
  (∀ (s t : State), s.pins.rst = false → step s = .next t →
    t.regs.frc.toNat = (s.regs.frc.toNat + 1) % 2 ^ 32) ∧
  (∀ (now : Inputs) (later : List Inputs) (n : Nat),
    (∀ k < n, (stateAt (State.reset.present now later) k).pins.rst = false) →
      (stateAt (State.reset.present now later) n).regs.frc.toNat = n % 2 ^ 32)

/-- R35 (a): a read of `CTRL` or of a period returns the value written last, however many cycles ago. -/
def Obligations.ReadsReturnLastWrite : Prop :=
  ∀ (s : State) (n : Nat), (∀ k ≤ n + 1, (stateAt s k).pins.rst = false) →
    (∀ e, presented s = .wrctrl e → (∀ k ≤ n, 1 ≤ k → writesCtrl (stateAt s k) = false) →
      presented (stateAt s (n + 1)) = .rdctrl → (outAt s (n + 1)).rdata = e.setWidth 32) ∧
    (∀ v, presented s = .wrfp v → (∀ k ≤ n, 1 ≤ k → writesFastPeriod (stateAt s k) = false) →
      presented (stateAt s (n + 1)) = .rdfp → (outAt s (n + 1)).rdata = v) ∧
    (∀ v, presented s = .wrsp v → (∀ k ≤ n, 1 ≤ k → writesSlowPeriod (stateAt s k) = false) →
      presented (stateAt s (n + 1)) = .rdsp → (outAt s (n + 1)).rdata = v)

/-! ## The operations: result, frame, completion -/

/-- R97: `NOP` completes in every state with response 0. The port writes nothing: `CTRL` and the periods are unchanged,
and every other register changes only as the rest of the cycle says: `FRC` counts, the timers count, and the Debouncer
and `PENDING` change only by a due `DEB_TICK`. -/
def Obligations.NopResultAndFrame : Prop :=
  (∀ w : Word, decodePorts 0x0#4 w = .nop) ∧
  ∀ s : State, ∃ t, exec .nop s = .next t ∧
    t.out = ⟨0#32, fastTick s.regs, slowTick s.regs⟩ ∧
    t.regs.ctrl = s.regs.ctrl ∧ t.regs.fastPeriod = s.regs.fastPeriod ∧ t.regs.slowPeriod = s.regs.slowPeriod ∧
    t.regs.fastCnt = timerNext false (fastTimer s.regs) ∧ t.regs.slowCnt = timerNext false (slowTimer s.regs) ∧
    t.regs.frc = s.regs.frc + 1#32 ∧
    (fastTick s.regs = false → debOf t.regs = debOf s.regs ∧ t.regs.pending = s.regs.pending) ∧
    (fastTick s.regs = true →
      debOf t.regs = debTick (debOf s.regs) (logicalSample s.polarity (sampledRaw s)) ∧
      t.regs.pending = s.regs.pending ||| pressMask (debOf s.regs) (logicalSample s.polarity (sampledRaw s)))

/-- R98, R47: the reserved operations complete in every state exactly as `NOP`, with response 0. For the select values of
their rows that is the spec's rule; that terms with any other select value act so too is the model's own choice (log
entry 9). -/
def Obligations.ReservedOperationsActAsNop : Prop :=
  ∀ (op : Op) (s : State), ∃ t, exec .nop s = .next t ∧ exec .rsvd9 s = .next t ∧
    exec (.rsvdAB op) s = .next t ∧ exec (.rsvdCF op) s = .next t ∧ t.out.rdata = 0#32

/-- R98, R47, at the port: with `op_i` in 0x9..0xF, whatever `wdata_i`, the cycle is that of `op_i = 0x0`. -/
def Obligations.ReservedOpcodesActAsNop : Prop :=
  ∀ (s : State) (w : Word), 9 ≤ s.pins.op.toNat →
    step s = step { s with pins := { s.pins with op := 0x0#4, wdata := w } } ∧
    (s.pins.rst = false → ∃ t, step s = .next t ∧ t.out.rdata = 0#32)

/-- R88, R90, R92, R94: the four reads complete in every state with the pre-edge value of their register,
zero-extended, and write nothing: all else is as under `NOP`. -/
def Obligations.ReadResultsAndFrame : Prop :=
  (∀ w : Word, decodePorts 0x2#4 w = .rdctrl ∧ decodePorts 0x4#4 w = .rdfp ∧ decodePorts 0x6#4 w = .rdsp ∧
    decodePorts 0x8#4 w = .rdfrc) ∧
  ∀ s : State, ∃ u, exec .nop s = .next u ∧
    (∃ t, exec .rdctrl s = .next t ∧ t = { u with out := { u.out with rdata := t.out.rdata } } ∧
      t.out.rdata.getLsbD 0 = s.regs.ctrl.getLsbD 0 ∧ t.out.rdata.getLsbD 1 = s.regs.ctrl.getLsbD 1 ∧
      ∀ i, 2 ≤ i → t.out.rdata.getLsbD i = false) ∧
    exec .rdfp s = .next { u with out := { u.out with rdata := s.regs.fastPeriod } } ∧
    exec .rdsp s = .next { u with out := { u.out with rdata := s.regs.slowPeriod } } ∧
    exec .rdfrc s = .next { u with out := { u.out with rdata := s.regs.frc } }

/-- R89: `WRCTRL en` completes in every state, stores both enables, answers 0, and changes nothing else: all else, the
counters among it, is as under `NOP`. -/
def Obligations.WrctrlResultAndFrame : Prop :=
  (∀ w : Word, decodePorts 0x3#4 w = .wrctrl (w.setWidth 2)) ∧
  ∀ (en : Enables) (s : State), ∃ u, exec .nop s = .next u ∧ u.out.rdata = 0#32 ∧
    exec (.wrctrl en) s = .next { u with regs := { u.regs with ctrl := en } }

/-- R91: `WRFP val` completes in every state, stores the period and clears `FAST_CNT`, answers 0, and changes nothing
else: a tick due in this cycle under the old period, and its `DEB_TICK`, are as under `NOP`. -/
def Obligations.WrfpResultAndFrame : Prop :=
  (∀ w : Word, decodePorts 0x5#4 w = .wrfp w) ∧
  ∀ (val : Word) (s : State), ∃ u, exec .nop s = .next u ∧ u.out.rdata = 0#32 ∧
    exec (.wrfp val) s = .next { u with regs := { u.regs with fastPeriod := val, fastCnt := 0#32 } }

/-- R93: `WRSP val` completes in every state, stores the period and clears `SLOW_CNT`, answers 0, and changes nothing
else. -/
def Obligations.WrspResultAndFrame : Prop :=
  (∀ w : Word, decodePorts 0x7#4 w = .wrsp w) ∧
  ∀ (val : Word) (s : State), ∃ u, exec .nop s = .next u ∧ u.out.rdata = 0#32 ∧
    exec (.wrsp val) s = .next { u with regs := { u.regs with slowPeriod := val, slowCnt := 0#32 } }
end

