-- ==== Sys2Proof/Laws/Encoding.lean ====
section
/-!
SUPPORT. The small lemmas of the command word (30_encoding.md rules R43 and R44): its bits, and its two fields.
-/

namespace Sys2Proof

/-- Bit `i` of a command word is a bit of `wdata_i` below 32 and of `op_i` from there on (R43). -/
theorem getLsbD_cmdOf (op : Op) (w : Word) (i : Nat) :
    (cmdOf op w).getLsbD i = if i < 32 then w.getLsbD i else op.getLsbD (i - 32) := by
  have h : (cmdOf op w).getLsbD i = ((op ++ w : BitVec (4 + 32))).getLsbD i := rfl
  rw [h, BitVec.getLsbD_append]

/-- The select field of a command word (R44). -/
theorem opField_cmdOf (op : Op) (w : Word) : opField (cmdOf op w) = op := by
  ext i hi
  simp only [opField, ← BitVec.getLsbD_eq_getElem, BitVec.getLsbD_extractLsb', getLsbD_cmdOf]
  simp [hi]

/-- The operand field of a command word (R44). -/
theorem wdataField_cmdOf (op : Op) (w : Word) : wdataField (cmdOf op w) = w := by
  ext i hi
  simp only [wdataField, ← BitVec.getLsbD_eq_getElem, BitVec.getLsbD_extractLsb', getLsbD_cmdOf]
  simp [hi]

/-- A command word is made of its two fields (R43). -/
theorem cmdOf_fields (cmd : Cmd) : cmdOf (opField cmd) (wdataField cmd) = cmd := by
  apply BitVec.eq_of_getLsbD_eq
  intro i hi
  rw [getLsbD_cmdOf]
  simp only [opField, wdataField, BitVec.getLsbD_extractLsb']
  split
  · simp [*]
  · have h1 : i - 32 < 4 := by omega
    have h2 : 32 + (i - 32) = i := by omega
    simp [h1, h2]

/-- A command word put together from the ports decodes as the ports do (R54). -/
theorem decode_cmdOf (op : Op) (w : Word) : decode (cmdOf op w) = decodePorts op w := by
  rw [decode, opField_cmdOf, wdataField_cmdOf]

end Sys2Proof
end

