-- ==== Sys2Proof/Laws/State.lean ====
section
/-!
SUPPORT. The small lemmas of the state: one per field per update, each true by rfl, so that no later proof unfolds a
record update.
-/

namespace Sys2Proof.Machine

/-! ### The edge that ends a cycle -/

@[simp] theorem endCycle_regs (r : Regs) (o : Outputs) (s : State) : (endCycle r o s).regs = r := rfl
@[simp] theorem endCycle_pins (r : Regs) (o : Outputs) (s : State) :
    (endCycle r o s).pins = s.coming.headD Inputs.idle := rfl
@[simp] theorem endCycle_coming (r : Regs) (o : Outputs) (s : State) : (endCycle r o s).coming = s.coming.tail := rfl
@[simp] theorem endCycle_out (r : Regs) (o : Outputs) (s : State) : (endCycle r o s).out = o := rfl
@[simp] theorem endCycle_polarity (r : Regs) (o : Outputs) (s : State) : (endCycle r o s).polarity = s.polarity := rfl
@[simp] theorem endCycle_draws (r : Regs) (o : Outputs) (s : State) : (endCycle r o s).draws = s.draws + 1 := rfl

/-! ### Presenting inputs -/

@[simp] theorem present_regs (s : State) (i : Inputs) (l : List Inputs) : (s.present i l).regs = s.regs := rfl
@[simp] theorem present_pins (s : State) (i : Inputs) (l : List Inputs) : (s.present i l).pins = i := rfl
@[simp] theorem present_coming (s : State) (i : Inputs) (l : List Inputs) : (s.present i l).coming = l := rfl
@[simp] theorem present_out (s : State) (i : Inputs) (l : List Inputs) : (s.present i l).out = s.out := rfl
@[simp] theorem present_polarity (s : State) (i : Inputs) (l : List Inputs) :
    (s.present i l).polarity = s.polarity := rfl
@[simp] theorem present_draws (s : State) (i : Inputs) (l : List Inputs) : (s.present i l).draws = s.draws := rfl

@[simp] theorem withFetchWord_regs (s : State) (n w : Nat) : (s.withFetchWord n w).regs = s.regs := rfl
@[simp] theorem withFetchWord_rst (s : State) (n w : Nat) : (s.withFetchWord n w).pins.rst = false := rfl
@[simp] theorem withFetchWord_raw (s : State) (n w : Nat) : (s.withFetchWord n w).pins.raw = s.pins.raw := rfl
@[simp] theorem withFetchWord_rawFree (s : State) (n w : Nat) :
    (s.withFetchWord n w).pins.rawFree = s.pins.rawFree := rfl
@[simp] theorem withFetchWord_op (s : State) (n w : Nat) :
    (s.withFetchWord n w).pins.op = opField (BitVec.ofNat 36 w) := rfl
@[simp] theorem withFetchWord_wdata (s : State) (n w : Nat) :
    (s.withFetchWord n w).pins.wdata = wdataField (BitVec.ofNat 36 w) := rfl
@[simp] theorem withFetchWord_coming (s : State) (n w : Nat) : (s.withFetchWord n w).coming = s.coming := rfl
@[simp] theorem withFetchWord_out (s : State) (n w : Nat) : (s.withFetchWord n w).out = s.out := rfl
@[simp] theorem withFetchWord_polarity (s : State) (n w : Nat) : (s.withFetchWord n w).polarity = s.polarity := rfl
@[simp] theorem withFetchWord_draws (s : State) (n w : Nat) : (s.withFetchWord n w).draws = s.draws := rfl

/-! ### The registers after a cycle -/

theorem nextRegs_pending (p : PortAct) (s : State) :
    (nextRegs p s).pending = pendingNext s.regs.pending p.clr (pressNow s) := rfl
theorem nextRegs_ctrl (p : PortAct) (s : State) : (nextRegs p s).ctrl = p.ctrl.getD s.regs.ctrl := rfl
theorem nextRegs_fastPeriod (p : PortAct) (s : State) :
    (nextRegs p s).fastPeriod = p.fastPeriod.getD s.regs.fastPeriod := rfl
theorem nextRegs_slowPeriod (p : PortAct) (s : State) :
    (nextRegs p s).slowPeriod = p.slowPeriod.getD s.regs.slowPeriod := rfl
theorem nextRegs_fastCnt (p : PortAct) (s : State) :
    (nextRegs p s).fastCnt = timerNext p.fastPeriod.isSome (fastTimer s.regs) := rfl
theorem nextRegs_slowCnt (p : PortAct) (s : State) :
    (nextRegs p s).slowCnt = timerNext p.slowPeriod.isSome (slowTimer s.regs) := rfl
theorem nextRegs_frc (p : PortAct) (s : State) : (nextRegs p s).frc = s.regs.frc + 1#32 := rfl
theorem debOf_nextRegs (p : PortAct) (s : State) : debOf (nextRegs p s) = debNext s := rfl

end Sys2Proof.Machine
end

