-- ==== Sys2Proof/Laws/Ops.lean ====
section
/-!
SUPPORT. One lemma for each shared operation that says once what it does: bits of a mask built lane by lane, the lane
table, the timers, what any operation's cycle is, and the states of a run.
-/

namespace Sys2Proof.Machine

/-! ### Lanes -/

/-- Bit `i` of a word built lane by lane is lane `i`. -/
@[simp] theorem getLsbD_ofLanes (f : Nat → Bool) (n i : Nat) : (ofLanes f n).getLsbD i = (decide (i < n) && f i) := by
  induction n with
  | zero => simp [ofLanes]
  | succ n ih =>
    simp only [ofLanes, BitVec.getLsbD_cons, ih]
    by_cases h : i = n
    · simp [h]
    · simp only [h, if_false]
      congr 1
      simp only [decide_eq_decide]
      omega

/-- The same for a bit whose number is known to be in range. -/
@[simp] theorem getElem_ofLanes (f : Nat → Bool) (n i : Nat) (h : i < n) : (ofLanes f n)[i] = f i := by
  rw [← BitVec.getLsbD_eq_getElem h, getLsbD_ofLanes]
  simp [h]

/-- The bits of a 2-bit counter made of a high and a low bit. -/
theorem ofBool_append_bits (a b : Bool) :
    (BitVec.ofBool a ++ BitVec.ofBool b).getLsbD 0 = b ∧ (BitVec.ofBool a ++ BitVec.ofBool b).getLsbD 1 = a := by
  cases a <;> cases b <;> decide

/-- The low bit of a lane's counter is its `CNT_LO` bit. -/
theorem laneCount_lo (d : Deb) (i : Nat) : (laneCount d i).getLsbD 0 = d.lo.getLsbD i :=
  (ofBool_append_bits _ _).1

/-- The high bit of a lane's counter is its `CNT_HI` bit. -/
theorem laneCount_hi (d : Deb) (i : Nat) : (laneCount d i).getLsbD 1 = d.hi.getLsbD i :=
  (ofBool_append_bits _ _).2

/-- A 2-bit counter is put together from its two bits. -/
theorem count_of_bits (c : Count) : BitVec.ofBool (c.getLsbD 1) ++ BitVec.ofBool (c.getLsbD 0) = c := by
  revert c
  decide

/-- The counter of lane `i` after a tick is the lane's result. -/
theorem laneCount_debTick (d : Deb) (m : Mask) (i : Nat) (h : i < 8) :
    laneCount (debTick d m) i = (laneResult d m i).1 := by
  rw [← count_of_bits (laneResult d m i).1]
  simp only [laneCount, debTick, getLsbD_ofLanes, h, decide_true, Bool.true_and]

/-- The committed state of lane `i` after a tick. -/
theorem state_debTick (d : Deb) (m : Mask) (i : Nat) (h : i < 8) :
    (debTick d m).state.getLsbD i = ((d.state.getLsbD i) ^^ (laneResult d m i).2) := by
  simp only [debTick, flipMask, BitVec.getLsbD_xor, getLsbD_ofLanes, h, decide_true, Bool.true_and]

/-- Lane `i` of the flip mask. -/
theorem flip_lane (d : Deb) (m : Mask) (i : Nat) (h : i < 8) :
    (flipMask d m).getLsbD i = (laneResult d m i).2 := by
  simp only [flipMask, getLsbD_ofLanes, h, decide_true, Bool.true_and]

/-- Lane `i` of the press mask. -/
theorem press_lane (d : Deb) (m : Mask) (i : Nat) (h : i < 8) :
    (pressMask d m).getLsbD i = ((laneResult d m i).2 && !d.state.getLsbD i) := by
  simp only [pressMask, BitVec.getLsbD_and, flip_lane d m i h, BitVec.getLsbD_not, h, decide_true, Bool.true_and]

/-- The disagreement bit of lane `i`. -/
theorem disagreement_lane (d : Deb) (m : Mask) (i : Nat) :
    (disagreement d m).getLsbD i = (m.getLsbD i ^^ d.state.getLsbD i) := by
  simp [disagreement]

/-! ### What a cycle is -/

/-- What the port of the operation `i` contributes, as data. -/
def portAct (i : Instr) (r : Regs) : PortAct :=
  match i with
  | .nop => {}
  | .chkclr mask => { rdata := zext32 (pendingHits r.pending mask), clr := mask }
  | .rdctrl => { rdata := zext32 r.ctrl }
  | .wrctrl en => { ctrl := some en }
  | .rdfp => { rdata := r.fastPeriod }
  | .wrfp val => { fastPeriod := some val }
  | .rdsp => { rdata := r.slowPeriod }
  | .wrsp val => { slowPeriod := some val }
  | .rdfrc => { rdata := r.frc }
  | .rsvd9 => {}
  | .rsvdAB _ => {}
  | .rsvdCF _ => {}

/-- Every operation is one cycle with its own port contribution. -/
theorem exec_eq_runCycle (i : Instr) (s : State) : exec i s = runCycle (portAct i s.regs) s := by
  cases i <;> rfl

/-- What a step can do: a reset cycle, or the cycle of the operation on the port. -/
theorem step_cases {s t : State} (h : step s = .next t) :
    (s.pins.rst = true ∧ t = endCycle Regs.reset Outputs.reset s) ∨
    (s.pins.rst = false ∧ t =
      endCycle (nextRegs (portAct (presented s) s.regs) s) (cycleOutputs (portAct (presented s) s.regs) s) s) := by
  simp only [step, exec_eq_runCycle, resetCycle, runCycle] at h
  split at h
  · exact .inl ⟨‹_›, by simpa using h.symm⟩
  · exact .inr ⟨Bool.eq_false_iff.mpr ‹_›, by simpa using h.symm⟩

/-- The next state of a reset cycle. -/
theorem after_of_rst {s : State} (h : s.pins.rst = true) : after s = endCycle Regs.reset Outputs.reset s := by
  simp [after, step, h, resetCycle]

/-- The next state of a cycle without reset. -/
theorem after_of_not_rst {s : State} (h : s.pins.rst = false) :
    after s = endCycle (nextRegs (portAct (presented s) s.regs) s) (cycleOutputs (portAct (presented s) s.regs) s) s := by
  simp [after, step, h, exec_eq_runCycle, runCycle]

/-! ### Runs -/

theorem stateAt_succ (s : State) (k : Nat) : stateAt s (k + 1) = after (stateAt s k) := rfl

/-- Cycle `k + 1` of a run is cycle `k` of the run from the next state. -/
theorem stateAt_after (s : State) (k : Nat) : stateAt s (k + 1) = stateAt (after s) k := by
  induction k with
  | zero => rfl
  | succ k ih => rw [stateAt_succ, ih, stateAt_succ]

/-- No step changes the parameter. -/
theorem stateAt_polarity (s : State) (k : Nat) : (stateAt s k).polarity = s.polarity := by
  induction k with
  | zero => rfl
  | succ k ih =>
    rw [stateAt_succ, ← ih]
    cases h : (stateAt s k).pins.rst
    · rw [after_of_not_rst h]; rfl
    · rw [after_of_rst h]; rfl

end Sys2Proof.Machine
end

