-- ==== Sys2Proof/Laws/PerInstr.lean ====
section
/-!
SUPPORT. Statements made for every operation, one lemma per constructor. `TableRow`: the encoder's word of a well-formed
operation is selected by that operation's own row of the opcode table (30_encoding.md rule R55).
-/

namespace Sys2Proof.Laws

/-- The row of the opcode table that carries the operation's mnemonic selects the operation's command word. -/
def TableRow.Statement (i : Instr) : Prop :=
  i.wellFormed = true →
    ∀ row ∈ opcodeTable, row.mnemonic = i.mnemonic → rowSelects row (encode i) = true ∧ row.format = i.format

/-- A row whose mask lies in the select field looks at `op_i` alone: the operand word cannot change it. -/
theorem rowSelects_cmdOf (row : OpcodeRow) (op : Op) (w : Word) (hm : row.mask.extractLsb' 0 32 = 0#32) :
    rowSelects row (cmdOf op w) = rowSelects row (cmdOf op 0#32) := by
  have h : cmdOf op w &&& row.mask = cmdOf op 0#32 &&& row.mask := by
    apply BitVec.eq_of_getLsbD_eq
    intro i hi
    simp only [BitVec.getLsbD_and, getLsbD_cmdOf]
    by_cases h32 : i < 32
    · have hz := congrArg (fun v : BitVec 32 => v.getLsbD i) hm
      simp only [BitVec.getLsbD_extractLsb', h32, decide_true, Bool.true_and, Nat.zero_add,
        BitVec.getLsbD_zero] at hz
      simp [hz]
    · simp [h32]
  simp [rowSelects, h]

/-- Every mask of the table lies in the select field (R46: the operation is selected by `op_i` alone). -/
theorem tableMasks : ∀ row ∈ opcodeTable, row.mask.extractLsb' 0 32 = 0#32 := by decide

/-- `TableRow` from the select value alone. -/
theorem tableRow_of_opcode (i : Instr)
    (h : ∀ row ∈ opcodeTable, row.mnemonic = i.mnemonic →
      rowSelects row (cmdOf (opcode i) 0#32) = true ∧ row.format = i.format) : TableRow.Statement i := by
  intro _ row hr hn
  rw [encode, rowSelects_cmdOf row _ _ (tableMasks row hr)]
  exact h row hr hn

theorem TableRow.nop : TableRow.Statement .nop := tableRow_of_opcode _ (by decide)
theorem TableRow.chkclr (mask : Mask) : TableRow.Statement (.chkclr mask) :=
  tableRow_of_opcode _ (by simp only [Instr.mnemonic, opcode, Instr.format]; decide)
theorem TableRow.rdctrl : TableRow.Statement .rdctrl := tableRow_of_opcode _ (by decide)
theorem TableRow.wrctrl (en : Enables) : TableRow.Statement (.wrctrl en) :=
  tableRow_of_opcode _ (by simp only [Instr.mnemonic, opcode, Instr.format]; decide)
theorem TableRow.rdfp : TableRow.Statement .rdfp := tableRow_of_opcode _ (by decide)
theorem TableRow.wrfp (val : Word) : TableRow.Statement (.wrfp val) :=
  tableRow_of_opcode _ (by simp only [Instr.mnemonic, opcode, Instr.format]; decide)
theorem TableRow.rdsp : TableRow.Statement .rdsp := tableRow_of_opcode _ (by decide)
theorem TableRow.wrsp (val : Word) : TableRow.Statement (.wrsp val) :=
  tableRow_of_opcode _ (by simp only [Instr.mnemonic, opcode, Instr.format]; decide)
theorem TableRow.rdfrc : TableRow.Statement .rdfrc := tableRow_of_opcode _ (by decide)
theorem TableRow.rsvd9 : TableRow.Statement .rsvd9 := tableRow_of_opcode _ (by decide)
theorem TableRow.rsvdAB (op : Op) : TableRow.Statement (.rsvdAB op) := by
  intro hw
  have h : op = 0xA#4 ∨ op = 0xB#4 := by simpa [Instr.wellFormed] using hw
  rcases h with rfl | rfl <;> decide
theorem TableRow.rsvdCF (op : Op) : TableRow.Statement (.rsvdCF op) := by
  intro hw
  have h : ((op = 0xC#4 ∨ op = 0xD#4) ∨ op = 0xE#4) ∨ op = 0xF#4 := by simpa [Instr.wellFormed] using hw
  rcases h with ((rfl | rfl) | rfl) | rfl <;> decide

end Sys2Proof.Laws
end

