-- ==== Sys2Proof/Tests/Slice0.lean ====
section
/-!
SUPPORT. The model's own tests. Expected values come from the spec: the encodings of 30_encoding.md, the examples in the
rules, and the vectors of 95_test_vectors.md (cited by their id). The witnesses show that the hypotheses of each
statement can be met together.
-/

namespace Sys2Proof.Tests

open Sys2Proof Sys2Proof.Machine

/-! ### Well-formedness: one ill-formed term for each check -/

theorem test_illFormed_rsvdAB : (Instr.rsvdAB 0x9#4).wellFormed = false := by decide
theorem test_illFormed_rsvdCF : (Instr.rsvdCF 0xB#4).wellFormed = false := by decide
theorem test_illFormed_pollstart_two_bits : (Pseudo.pollstart 0x03#8).wellFormed = false := by decide
theorem test_illFormed_pollstart_no_bit : (Pseudo.pollstart 0x00#8).wellFormed = false := by decide
theorem test_wellFormed_pollstart : (Pseudo.pollstart 0x04#8).wellFormed = true := by decide

/-! ### Decoding and encoding: words written out from R43, R44 and R46 -/

theorem test_decode_nop : decode 0b000000000000000000000000000000000000#36 = .nop := by decide
theorem test_decode_chkclr : decode 0b000111111111111111111111111110100101#36 = .chkclr 0xA5#8 := by decide
theorem test_decode_rdctrl : decode 0b001000000000000000000000000000000000#36 = .rdctrl := by decide
theorem test_decode_wrctrl : decode 0b001111111111111111111111111111111110#36 = .wrctrl 0b10#2 := by decide
theorem test_decode_rdfp : decode 0b010000000000000000000000000000000000#36 = .rdfp := by decide
theorem test_decode_wrfp : decode 0b010110000000000000000000000000000001#36 = .wrfp 0x80000001#32 := by decide
theorem test_decode_rdsp : decode 0b011000000000000000000000000000000000#36 = .rdsp := by decide
theorem test_decode_wrsp : decode 0b011110000000000000000000000000000010#36 = .wrsp 0x80000002#32 := by decide
theorem test_decode_rdfrc : decode 0b100000000000000000000000000000000000#36 = .rdfrc := by decide
theorem test_decode_rsvd9 : decode 0b100100000000000000000000000000000000#36 = .rsvd9 := by decide
theorem test_decode_rsvdA : decode 0b101000000000000000000000000000000000#36 = .rsvdAB 0xA#4 := by decide
theorem test_decode_rsvdB : decode 0b101111111111111111111111111111111111#36 = .rsvdAB 0xB#4 := by decide
theorem test_decode_rsvdC : decode 0b110000000000000000000000000000000000#36 = .rsvdCF 0xC#4 := by decide
theorem test_decode_rsvdF : decode 0b111111111111111111111111111111111111#36 = .rsvdCF 0xF#4 := by decide
/-- R51: `CHKCLR 0x07` is `0x100000007`. -/
theorem test_encode_chkclr : encode (.chkclr 0x07#8) = 0x100000007#36 := by decide
/-- A number of more than 36 bits is no command word (log entry 10). -/
theorem test_table_word_too_long : decodeTableWord 36 0x1000000000 = none := by decide

/-! ### Small states -/

/-- One cycle's inputs, all levels stated. -/
def ins (op : Op) (wdata : Word) (raw : Mask) : Inputs := ⟨false, raw, 0x00#8, op, wdata⟩

/-- A reset cycle's inputs. -/
def rstIns : Inputs := ⟨true, 0xFF#8, 0x00#8, 0x1#4, 0xFF#32⟩

/-- A state with given registers and inputs, active-high buttons as in 95_test_vectors.md. -/
def st (r : Regs) (now : Inputs) (later : List Inputs) : State := ⟨r, now, later, Outputs.reset, 0xFF#8, 0⟩

/-- R21 with the fast timer enabled at period 1, so that every cycle ticks. -/
def ticking : Regs := { Regs.reset with ctrl := 1#2, fastPeriod := 1#32 }

/-- The pre-state of E5: channel 0 holds 1. -/
def channel0At1 : Regs := { ticking with cntHi := 0xFE#8 }

/-- R21 with the fast timer enabled at period `p` and its counter at `c`. -/
def fastAt (p c : Word) : Regs := { Regs.reset with ctrl := 1#2, fastPeriod := p, fastCnt := c }

/-- R21 with the slow timer enabled at period `p` and its counter at `c`. -/
def slowAt (p c : Word) : Regs := { Regs.reset with ctrl := 2#2, slowPeriod := p, slowCnt := c }

/-! ### The Debouncer -/

/-- D0: the lane function, all eight cases. -/
theorem test_lane_table :
    [(3, false), (2, false), (1, false), (0, false), (3, true), (2, true), (1, true), (0, true)].map
      (fun p => laneStep (BitVec.ofNat 2 p.1) p.2) =
    [(3#2, false), (3#2, false), (3#2, false), (3#2, false), (2#2, false), (1#2, false), (3#2, true), (3#2, true)] := by
  decide

/-- S4, tick 3, and D3. -/
theorem test_debTick_S4 :
    debTick ⟨0xFF#8, 0xF4#8, 0x00#8⟩ 0x0D#8 = ⟨0xFB#8, 0xFF#8, 0x09#8⟩ ∧
    pressMask ⟨0xFF#8, 0xF4#8, 0x00#8⟩ 0x0D#8 = 0x09#8 := by decide

/-- D1: a counter at 0 commits at once. -/
theorem test_debTick_D1 :
    debTick ⟨0xFE#8, 0xFE#8, 0x00#8⟩ 0x01#8 = ⟨0xFF#8, 0xFF#8, 0x01#8⟩ ∧
    debTick ⟨0xFE#8, 0xFE#8, 0x00#8⟩ 0x00#8 = ⟨0xFF#8, 0xFF#8, 0x00#8⟩ := by decide

/-- S1, tick 9: a committed release reports nothing. -/
theorem test_release_no_press : pressMask ⟨0xFF#8, 0xFE#8, 0x01#8⟩ 0x00#8 = 0x00#8 := by decide

/-- D2: polarity. -/
theorem test_logicalSample_D2 :
    logicalSample 0x00#8 0xFD#8 = 0x02#8 ∧ logicalSample 0xFF#8 0xFD#8 = 0xFD#8 ∧
    logicalSample 0x0F#8 0x3C#8 = 0xCC#8 := by decide

/-! ### One cycle -/

/-- E1: a selective call. -/
theorem test_chkclr_E1 :
    (after (st { Regs.reset with pending := 0x05#8 } (ins 0x1#4 0x03#32 0x00#8) [])).out.rdata = 0x00000001#32 ∧
    (after (st { Regs.reset with pending := 0x05#8 } (ins 0x1#4 0x03#32 0x00#8) [])).regs.pending = 0x04#8 := by decide

/-- E5, row 4: the old event is answered and the new one kept. -/
theorem test_chkclr_E5 :
    (after (st { channel0At1 with pending := 0x01#8 } (ins 0x1#4 0x01#32 0x01#8) [])).out.rdata = 0x00000001#32 ∧
    (after (st { channel0At1 with pending := 0x01#8 } (ins 0x1#4 0x01#32 0x01#8) [])).regs.pending = 0x01#8 := by decide

/-- P1, cycle 11: `NOP` in a cycle whose tick commits a press. -/
theorem test_nop_press :
    (after (st channel0At1 (ins 0x0#4 0#32 0x01#8) [])).regs.state = 0x01#8 ∧
    (after (st channel0At1 (ins 0x0#4 0#32 0x01#8) [])).regs.pending = 0x01#8 := by decide

/-- R88's example. -/
theorem test_rdctrl : (after (st (slowAt 0#32 0#32) (ins 0x2#4 0#32 0x00#8) [])).out.rdata = 0x00000002#32 := by decide

/-- K9: the ignored bits of `WRCTRL`. -/
theorem test_wrctrl_K9 :
    (after (st Regs.reset (ins 0x3#4 0xFFFFFFFE#32 0x00#8) [])).regs.ctrl = 0b10#2 ∧
    (after (st Regs.reset (ins 0x3#4 0xFFFFFFFE#32 0x00#8) [])).out.rdata = 0#32 := by decide

/-- K4: the tick due in the cycle that disables the timer still fires. -/
theorem test_wrctrl_K4 :
    (after (st (slowAt 5#32 4#32) (ins 0x3#4 0#32 0x00#8) [])).out.slowTick = true ∧
    (after (st (slowAt 5#32 4#32) (ins 0x3#4 0#32 0x00#8) [])).regs.slowCnt = 0#32 := by decide

/-- R90's example. -/
theorem test_rdfp : (after (st (fastAt 160000#32 0#32) (ins 0x4#4 0#32 0x00#8) [])).out.rdata = 0x00027100#32 := by
  decide

/-- K2, cycle 100: the tick of the old period fires, the new period starts. -/
theorem test_wrfp_K2 :
    (after (st (fastAt 3#32 2#32) (ins 0x5#4 2#32 0x00#8) [])).out.fastTick = true ∧
    (after (st (fastAt 3#32 2#32) (ins 0x5#4 2#32 0x00#8) [])).regs = { fastAt 2#32 0#32 with frc := 1#32 } := by decide

/-- R92's example. -/
theorem test_rdsp : (after (st (slowAt 7#32 0#32) (ins 0x6#4 0#32 0x00#8) [])).out.rdata = 0x00000007#32 := by decide

/-- P4, cycle 8: a period write restarts the period. -/
theorem test_wrsp_P4 :
    (after (st (slowAt 3#32 1#32) (ins 0x7#4 5#32 0x00#8) [])).regs = { slowAt 5#32 0#32 with frc := 1#32 } := by decide

/-- K8: `FRC` is answered before its increment, and wraps. -/
theorem test_rdfrc_K8 :
    (after (st { Regs.reset with frc := 0xFFFFFFFF#32 } (ins 0x8#4 0#32 0x00#8) [])).out.rdata = 0xFFFFFFFF#32 ∧
    (after (st { Regs.reset with frc := 0xFFFFFFFF#32 } (ins 0x8#4 0#32 0x00#8) [])).regs.frc = 0#32 := by decide

/-- Q2: a reserved opcode changes nothing that `NOP` does not. -/
theorem test_reserved_Q2 :
    (after (st (fastAt 3#32 1#32) (ins 0xF#4 0xFFFFFFFF#32 0xFF#8) [])).regs = { fastAt 3#32 2#32 with frc := 1#32 } := by
  decide

/-- K6: a counter beyond its period ticks and restarts. -/
theorem test_timer_K6 :
    timerTick ⟨true, 3#32, 9#32⟩ = true ∧ timerNext false ⟨true, 3#32, 9#32⟩ = 0#32 := by decide

/-- K10: the largest period ticks at `0xFFFFFFFE`, and not before. -/
theorem test_timer_K10 :
    timerTick ⟨true, 0xFFFFFFFF#32, 0xFFFFFFFE#32⟩ = true ∧
    timerTick ⟨true, 0xFFFFFFFF#32, 0xFFFFFFFD#32⟩ = false := by decide

/-- R83: period 0 never ticks, and its counter is held at 0. -/
theorem test_timer_period0 :
    timerTick ⟨true, 0#32, 0xFFFFFFFF#32⟩ = false ∧ timerNext false ⟨true, 0#32, 5#32⟩ = 0#32 := by decide

/-- Q3, line b: a reset cycle at power-up, with an arbitrary pre-reset state. -/
theorem test_reset_Q3 :
    let s := (State.powerUp ⟨0xAA#8, 0x55#8, 0x33#8, 0xCC#8, 3#2, 7#32, 9#32, 1#32, 2#32, 12345#32⟩
      ⟨7#32, true, true⟩).present rstIns []
    (after s).regs = Regs.reset ∧ (after s).out = ⟨0#32, false, false⟩ := by decide

/-- Q3, line a: the same state performs the operation if `rst_i = 0`. -/
theorem test_before_reset_Q3 :
    let s := (State.powerUp ⟨0xAA#8, 0x55#8, 0x33#8, 0xCC#8, 3#2, 7#32, 9#32, 1#32, 2#32, 12345#32⟩
      ⟨7#32, true, true⟩).present (ins 0x1#4 0xFF#32 0xFF#8) []
    (after s).out.rdata = 0x000000CC#32 ∧
    (after s).regs = ⟨0xAA#8, 0x55#8, 0x33#8, 0x00#8, 3#2, 7#32, 9#32, 2#32, 3#32, 12346#32⟩ := by decide

/-- A word placed by `withFetchWord` is run from reset. -/
theorem test_withFetchWord : (after (State.reset.withFetchWord 36 0x500000007)).regs.fastPeriod = 7#32 := by decide

/-- R51: a two-line trace, whose second line repeats `raw=`. -/
theorem test_trace :
    traceInputs 0x00#8 [⟨.wrctrl 1#2, some 0x02#8, false, Outputs.reset⟩, ⟨.rdctrl, none, false, ⟨1#32, false, false⟩⟩] =
      [ins 0x3#4 1#32 0x02#8, ins 0x2#4 0#32 0x02#8] ∧
    traceHolds (st Regs.reset (ins 0x3#4 1#32 0x02#8) [ins 0x2#4 0#32 0x02#8])
      [⟨.wrctrl 1#2, some 0x02#8, false, Outputs.reset⟩, ⟨.rdctrl, none, false, ⟨1#32, false, false⟩⟩] = true := by
  decide

/-! ### Witnesses: the hypotheses of the statements can be met -/

theorem witness_DecodeOfEncode : (Instr.rsvdAB 0xB#4).wellFormed = true := by decide

theorem witness_IgnoredBitsHaveNoEffect :
    0xFFFFFF07#32 &&& (decodePorts 0x1#4 0xFFFFFF07#32).format.usedBits =
      0x00000007#32 &&& (decodePorts 0x1#4 0xFFFFFF07#32).format.usedBits ∧
    (let s := st Regs.reset (ins 0x1#4 0xFFFFFF07#32 0x00#8) []
     s.pins.wdata &&& (presented s).format.usedBits = 0x00000007#32 &&& (presented s).format.usedBits) := by decide

theorem witness_StepRunsPresentedOperation :
    (let s := st Regs.reset (ins 0x5#4 9#32 0x00#8) []
     s.pins.rst = false ∧ decode (cmdOf s.pins.op s.pins.wdata) = .wrfp 9#32) ∧
    (st Regs.reset rstIns []).pins.rst = true := by decide

/-- A step that answers a next state: for `NextInputsArrive` and every statement that supposes one. -/
theorem witness_NextInputsArrive :
    step State.reset = .next (after State.reset) ∧ ∃ t, exec (.wrsp 7#32) State.reset = .next t := ⟨rfl, _, rfl⟩

/-- Each register written at its own writer, and one that no write touches. -/
theorem witness_RegisterWriters :
    (after (st Regs.reset (ins 0x3#4 3#32 0x00#8) [])).regs.ctrl ≠ Regs.reset.ctrl ∧
    (after (st Regs.reset (ins 0x5#4 3#32 0x00#8) [])).regs.fastPeriod ≠ Regs.reset.fastPeriod ∧
    (after (st Regs.reset (ins 0x7#4 3#32 0x00#8) [])).regs.slowPeriod ≠ Regs.reset.slowPeriod ∧
    debOf (after (st channel0At1 (ins 0x0#4 0#32 0x01#8) [])).regs ≠ debOf channel0At1 := by decide

theorem witness_FetchWordIsRun : 0xFFFFFFFFF < 2 ^ 36 := by decide

theorem witness_StepIsWholeCycle : (st Regs.reset (ins 0x0#4 0#32 0x5A#8) []).pins.rawFree = 0x00#8 := by decide

theorem witness_WhatInputsInfluence :
    fastTick (fastAt 3#32 1#32) = false ∧ fastTick (fastAt 3#32 2#32) = true ∧
    (st Regs.reset rstIns []).pins.rst = true := by decide

theorem witness_ResetCycleValues : (st channel0At1 rstIns []).pins.rst = true := by decide

theorem witness_ResetHeldAnyNumberOfCycles :
    ∀ k ≤ 1, (stateAt (st channel0At1 rstIns [rstIns]) k).pins.rst = true := by decide

theorem witness_InertUntilEnabled :
    let s := State.reset.present (ins 0x5#4 3#32 0xFF#8) [ins 0x1#4 0xFF#32 0xFF#8]
    ∀ k < 2, (stateAt s k).pins.rst = false ∧ writesCtrl (stateAt s k) = false := by decide

theorem witness_StepKeepsInvariant :
    let s := st (fastAt 3#32 2#32) (ins 0x0#4 0#32 0x01#8) []
    regsInv s.regs ∧ ¬regsInv { s.regs with fastCnt := 3#32 } ∧ ¬regsInv { s.regs with cntLo := 0xFE#8, cntHi := 0xFE#8 } := by
  decide

theorem witness_LogicalSampleBits :
    (st Regs.reset ⟨false, 0x80#8, 0x01#8, 0x0#4, 0#32⟩ []).pins.rawFree.getLsbD 7 = false ∧
    (let s := st Regs.reset (ins 0x0#4 0#32 0x5A#8) []; s.pins.rawFree = 0x00#8 ∧ s.polarity = 0xFF#8) ∧
    (let s := { st Regs.reset (ins 0x0#4 0#32 0x5A#8) [] with polarity := 0x00#8 }
     s.pins.rawFree = 0x00#8 ∧ s.polarity = 0x00#8) := by decide

theorem witness_DebTickTrigger :
    (let s := st ticking (ins 0x1#4 0xFF#32 0x01#8) []; s.pins.rst = false ∧ fastTick s.regs = true) ∧
    (let s := st Regs.reset (ins 0x1#4 0xFF#32 0x01#8) []; s.pins.rst = false ∧ fastTick s.regs = false) ∧
    (st ticking rstIns []).pins.rst = true := by decide

/-- Each clause at the values where it begins: an agreeing lane, counters 2 and 3, counters 1 and 0. -/
theorem witness_LaneOfDebTick :
    (disagreement ⟨0xFF#8, 0xFF#8, 0x00#8⟩ 0x7F#8).getLsbD 7 = false ∧
    ((disagreement ⟨0x00#8, 0xFF#8, 0x00#8⟩ 0x80#8).getLsbD 7 = true ∧
      (laneCount ⟨0x00#8, 0xFF#8, 0x00#8⟩ 7).toNat = 2) ∧
    (laneCount ⟨0xFF#8, 0xFF#8, 0x00#8⟩ 0).toNat = 3 ∧
    ((disagreement ⟨0xFF#8, 0x00#8, 0x80#8⟩ 0x00#8).getLsbD 7 = true ∧
      (laneCount ⟨0xFF#8, 0x00#8, 0x80#8⟩ 7).toNat = 1) ∧
    (laneCount ⟨0x00#8, 0x00#8, 0x00#8⟩ 0).toNat = 0 := by decide

theorem witness_LanesAreIndependentAndAlike :
    (0x01#8).getLsbD 0 = (0x80#8).getLsbD 7 ∧ (0x00#8).getLsbD 0 = (0x0F#8).getLsbD 7 ∧
    (0xFE#8).getLsbD 0 = (0x7F#8).getLsbD 7 ∧ (0xFF#8).getLsbD 0 = (0xF0#8).getLsbD 7 := by decide

/-- A lane that flips on the third of three ticks, and a lane at rest before a two-sample glitch. -/
theorem witness_GlitchRejection :
    (let d : Deb := ⟨0xFF#8, 0xFF#8, 0x00#8⟩
     (runTicks d [0x01#8, 0x01#8, 0x01#8]).state.getLsbD 0 ≠ (runTicks d [0x01#8, 0x01#8]).state.getLsbD 0) ∧
    (let d : Deb := ⟨0xFF#8, 0xFF#8, 0x00#8⟩
     laneCount d 7 = 3#2 ∧ [0x80#8, 0x80#8].length ≤ 2 ∧ (0x00#8).getLsbD 7 = d.state.getLsbD 7) := by decide

theorem witness_OneEventPerPress :
    let d : Deb := ⟨0xFF#8, 0xFF#8, 0x00#8⟩
    d.state.getLsbD 7 = false ∧ laneCount d 7 = 3#2 ∧ (∀ x ∈ [0x80#8, 0xFF#8], x.getLsbD 7 = true) ∧
    (0x80#8).getLsbD 7 = true := by decide

theorem witness_NextPressNeedsRelease :
    let d : Deb := ⟨0xFF#8, 0xFF#8, 0x01#8⟩
    d.state.getLsbD 0 = true ∧ laneCount d 0 = 3#2 ∧
    (pressMask (runTicks d [0x00#8, 0x00#8, 0x00#8, 0x01#8, 0x01#8]) 0x01#8).getLsbD 0 = true := by decide

theorem witness_HeldLevelIsCommitted :
    let s := st ticking (ins 0x3#4 3#32 0x80#8) [ins 0x3#4 1#32 0x80#8, ins 0x1#4 0xFF#32 0x80#8]
    s.regs.fastPeriod.toNat = 1 ∧
    ∀ k < 3 * 1, (stateAt s k).pins.rst = false ∧ (stateAt s k).regs.ctrl.getLsbD 0 = true ∧
      writesFastPeriod (stateAt s k) = false ∧ sampledLevel (stateAt s k) 7 = true := by decide

theorem witness_PendingNextValue :
    let s := st channel0At1 (ins 0x1#4 0x80#32 0x01#8) []
    s.pins.rst = false ∧ s.pins.op = 0x1#4 ∧ s.pins.wdata.getLsbD 7 = true := by decide

/-- A bit that a call clears, and a bit that a tick sets. -/
theorem witness_OnlyTheseChangePending :
    (let s := st { Regs.reset with pending := 0x80#8 } (ins 0x1#4 0x80#32 0x00#8) []
     s.regs.pending.getLsbD 7 = true ∧ (after s).regs.pending.getLsbD 7 = false) ∧
    (let s := st channel0At1 (ins 0x0#4 0#32 0x01#8) []
     s.regs.pending.getLsbD 0 = false ∧ (after s).regs.pending.getLsbD 0 = true) := by decide

theorem witness_SecondCallReturnsEmpty :
    let s := st { Regs.reset with pending := 0x07#8 } (ins 0x1#4 0x07#32 0x00#8) [ins 0x1#4 0x07#32 0x00#8]
    s.pins.rst = false ∧ presented s = .chkclr 0x07#8 ∧
    (∀ k ≤ 0, (stateAt s k).pins.rst = false → pressNow (stateAt s k) &&& 0x07#8 = 0x00#8) ∧
    (stateAt s 1).pins.rst = false ∧ presented (stateAt s 1) = .chkclr 0x07#8 := by decide

theorem witness_UnselectedEventsStay :
    let s := st { Regs.reset with pending := 0x82#8 } (ins 0x1#4 0x02#32 0x00#8) [ins 0x1#4 0x7F#32 0x00#8]
    s.regs.pending.getLsbD 7 = true ∧
    ∀ k < 2, (stateAt s k).pins.rst = false ∧ (selectedChannels (stateAt s k)).getLsbD 7 = false := by decide

/-- A press in the very cycle of the selecting call, and none. -/
theorem witness_EventsMerge :
    let s := st channel0At1 (ins 0x1#4 0x81#32 0x01#8) [ins 0x0#4 0#32 0x01#8, ins 0x1#4 0xFF#32 0x01#8]
    (∀ i ∈ [0, 7], (selectedChannels s).getLsbD i = true ∧
      (∀ k ≤ 1, (stateAt s k).pins.rst = false) ∧
      (∀ k ≤ 1, 1 ≤ k → (selectedChannels (stateAt s k)).getLsbD i = false) ∧
      (stateAt s 2).pins.rst = false ∧ (selectedChannels (stateAt s 2)).getLsbD i = true) ∧
    (pressNow s).getLsbD 0 = true := by decide

theorem witness_EventLevelReading :
    let s := st channel0At1 (ins 0x1#4 0xFF#32 0x01#8) [ins 0x1#4 0xFF#32 0x01#8]
    (∀ k < 2, (stateAt s k).pins.rst = false) ∧ responsesUpTo s 2 = [0#32, 1#32] := by decide

theorem witness_TimersTickAndCount : (st (fastAt 3#32 2#32) (ins 0x7#4 4#32 0x00#8) []).pins.rst = false := by decide

theorem witness_TimersAreIndependent :
    (0b11#2).getLsbD 0 = (fastAt 3#32 1#32).ctrl.getLsbD 0 ∧
    (0b11#2).getLsbD 1 = (slowAt 3#32 1#32).ctrl.getLsbD 1 := by decide

theorem witness_TickAfterPeriodWrite :
    (let s := st (fastAt 3#32 1#32) (ins 0x5#4 2#32 0x00#8) [ins 0x0#4 0#32 0x00#8, ins 0x3#4 0#32 0x00#8]
     (∀ k ≤ (2#32).toNat, (stateAt s k).pins.rst = false) ∧ presented s = .wrfp 2#32 ∧
     (∀ k ≤ (2#32).toNat, (stateAt s k).regs.ctrl.getLsbD 0 = true) ∧
     (∀ k < (2#32).toNat, 1 ≤ k → writesFastPeriod (stateAt s k) = false)) ∧
    (let s := st (slowAt 3#32 1#32) (ins 0x7#4 2#32 0x00#8) [ins 0x0#4 0#32 0x00#8, ins 0x3#4 0#32 0x00#8]
     (∀ k ≤ (2#32).toNat, (stateAt s k).pins.rst = false) ∧ presented s = .wrsp 2#32 ∧
     (∀ k ≤ (2#32).toNat, (stateAt s k).regs.ctrl.getLsbD 1 = true) ∧
     (∀ k < (2#32).toNat, 1 ≤ k → writesSlowPeriod (stateAt s k) = false)) := by decide

theorem witness_TickAfterEnable :
    (let s := st { Regs.reset with fastPeriod := 2#32 } (ins 0x3#4 1#32 0x00#8) [ins 0x0#4 0#32 0x00#8, ins 0x3#4 0#32 0x00#8]
     presented s = .wrctrl 1#2 ∧ (∀ k ≤ 2, (stateAt s k).pins.rst = false) ∧ s.regs.fastPeriod.toNat = 2 ∧
     s.regs.ctrl.getLsbD 0 = false ∧ (∀ k ≤ 2, 1 ≤ k → (stateAt s k).regs.ctrl.getLsbD 0 = true) ∧
     (∀ k < 2, 1 ≤ k → writesFastPeriod (stateAt s k) = false)) ∧
    (let s := st { Regs.reset with slowPeriod := 2#32 } (ins 0x3#4 2#32 0x00#8) [ins 0x0#4 0#32 0x00#8, ins 0x3#4 0#32 0x00#8]
     presented s = .wrctrl 2#2 ∧ (∀ k ≤ 2, (stateAt s k).pins.rst = false) ∧ s.regs.slowPeriod.toNat = 2 ∧
     s.regs.ctrl.getLsbD 1 = false ∧ (∀ k ≤ 2, 1 ≤ k → (stateAt s k).regs.ctrl.getLsbD 1 = true) ∧
     (∀ k < 2, 1 ≤ k → writesSlowPeriod (stateAt s k) = false)) := by decide

theorem witness_TicksOnePeriodApart :
    (let s := st (fastAt 2#32 1#32) (ins 0x0#4 0#32 0x00#8) [ins 0x0#4 0#32 0x00#8, ins 0x0#4 0#32 0x00#8]
     (∀ k ≤ 2, (stateAt s k).pins.rst = false) ∧ s.regs.fastPeriod.toNat = 2 ∧ (outAt s 0).fastTick = true ∧
     (∀ k ≤ 2, (stateAt s k).regs.ctrl.getLsbD 0 = true) ∧ ∀ k < 2, writesFastPeriod (stateAt s k) = false) ∧
    (let s := st (slowAt 2#32 1#32) (ins 0x0#4 0#32 0x00#8) [ins 0x0#4 0#32 0x00#8, ins 0x0#4 0#32 0x00#8]
     (∀ k ≤ 2, (stateAt s k).pins.rst = false) ∧ s.regs.slowPeriod.toNat = 2 ∧ (outAt s 0).slowTick = true ∧
     (∀ k ≤ 2, (stateAt s k).regs.ctrl.getLsbD 1 = true) ∧ ∀ k < 2, writesSlowPeriod (stateAt s k) = false) := by decide

theorem witness_FrcCountsCycles :
    (st ticking rstIns []).pins.rst = true ∧ (st ticking (ins 0x8#4 0#32 0x00#8) []).pins.rst = false ∧
    ∀ k < 2, (stateAt (State.reset.present (ins 0x8#4 0#32 0x00#8) [ins 0x8#4 0#32 0x00#8]) k).pins.rst = false := by decide

theorem witness_ReadsReturnLastWrite :
    (let s := st Regs.reset (ins 0x3#4 2#32 0x00#8) [ins 0x0#4 0#32 0x00#8, ins 0x2#4 0#32 0x00#8]
     (∀ k ≤ 2, (stateAt s k).pins.rst = false) ∧ presented s = .wrctrl 2#2 ∧
     (∀ k ≤ 1, 1 ≤ k → writesCtrl (stateAt s k) = false) ∧ presented (stateAt s 2) = .rdctrl) ∧
    (let s := st Regs.reset (ins 0x5#4 2#32 0x00#8) [ins 0x0#4 0#32 0x00#8, ins 0x4#4 0#32 0x00#8]
     (∀ k ≤ 2, (stateAt s k).pins.rst = false) ∧ presented s = .wrfp 2#32 ∧
     (∀ k ≤ 1, 1 ≤ k → writesFastPeriod (stateAt s k) = false) ∧ presented (stateAt s 2) = .rdfp) ∧
    (let s := st Regs.reset (ins 0x7#4 2#32 0x00#8) [ins 0x0#4 0#32 0x00#8, ins 0x6#4 0#32 0x00#8]
     (∀ k ≤ 2, (stateAt s k).pins.rst = false) ∧ presented s = .wrsp 2#32 ∧
     (∀ k ≤ 1, 1 ≤ k → writesSlowPeriod (stateAt s k) = false) ∧ presented (stateAt s 2) = .rdsp) := by decide

/-- The first and the last reserved select value. -/
theorem witness_ReservedOpcodesActAsNop :
    9 ≤ (st Regs.reset (ins 0x9#4 5#32 0x00#8) []).pins.op.toNat ∧
    9 ≤ (st Regs.reset (ins 0xF#4 5#32 0x00#8) []).pins.op.toNat ∧
    (st Regs.reset (ins 0xF#4 5#32 0x00#8) []).pins.rst = false := by decide

end Sys2Proof.Tests
end

/-! # Proofs of 10_state.md: the reset values (R21) and the invariant of the reachable state (R22) -/

namespace Sys2Proof.Machine

/-! ### Steps and runs -/

/-- Every step completes, so `after` names its next state (R100, R105). -/
theorem step_eq_next_after (s : State) : step s = .next (after s) := by
  cases h : s.pins.rst with
  | false => simp only [after_of_not_rst h, step, h, exec_eq_runCycle, runCycle, Bool.false_eq_true, if_false]
  | true => simp only [after_of_rst h, step, h, resetCycle, if_true]

/-- What every step keeps, and the first state of a run meets, holds at the start of every cycle of the run. -/
theorem stateAt_induction {P : State → Prop} (hstep : ∀ s t, P s → step s = .next t → P t) {s : State}
    (h0 : P s) (n : Nat) : P (stateAt s n) := by
  induction n with
  | zero => exact h0
  | succ n ih => exact hstep _ _ ih (step_eq_next_after _)

/-! ### Debounce counters are never 0 (R22 (a)) -/

/-- A lane's counter is not 0 iff one of its two bits is set. -/
theorem laneCount_ne_zero_iff (d : Deb) (i : Nat) :
    laneCount d i ≠ 0#2 ↔ (d.lo.getLsbD i || d.hi.getLsbD i) = true := by
  simp only [laneCount]
  generalize d.hi.getLsbD i = hi
  generalize d.lo.getLsbD i = lo
  revert hi lo
  decide

/-- `countersLive`, lane by lane. -/
theorem countersLive_iff (r : Regs) : countersLive r ↔ ∀ i < 8, laneCount (debOf r) i ≠ 0#2 := by
  simp only [laneCount_ne_zero_iff, debOf, ← BitVec.getLsbD_or]
  have ones : ∀ i < 8, (0xFF#8).getLsbD i = true := by decide
  constructor
  · intro h i hi
    rw [show r.cntLo ||| r.cntHi = 0xFF#8 from h, ones i hi]
  · intro h
    exact BitVec.eq_of_getLsbD_eq fun i hi => by rw [h i hi, ones i hi]

/-- A tick stores 3 where the decremented counter would be 0 (R60), so it never stores 0. -/
theorem laneStep_ne_zero (c : Count) (x : Bool) : (laneStep c x).1 ≠ 0#2 := by
  revert c x
  decide

/-- With or without a `DEB_TICK`, a cycle leaves no lane's counter at 0. -/
theorem laneCount_debNext_ne_zero {s : State} {i : Nat} (hi : i < 8) (h : laneCount (debOf s.regs) i ≠ 0#2) :
    laneCount (debNext s) i ≠ 0#2 := by
  unfold debNext
  split
  · rw [laneCount_debTick _ _ _ hi]
    exact laneStep_ne_zero _ _
  · exact h

theorem countersLive_nextRegs {s : State} (p : PortAct) (h : countersLive s.regs) : countersLive (nextRegs p s) := by
  rw [countersLive_iff] at h ⊢
  intro i hi
  rw [debOf_nextRegs]
  exact laneCount_debNext_ne_zero hi (h i hi)

/-! ### Timer counters stay below their periods (R22 (b)) -/

theorem timerBounded_of_cnt_eq_zero {t : Timer} (h : t.cnt = 0#32) : timerBounded t := by
  unfold timerBounded
  split
  · exact h
  · rw [h]
    bv_omega

/-- A timer that runs and does not tick is at least one below the last value of its period, so one more stays below the
period and does not wrap. -/
theorem succ_lt_period_of_no_tick {t : Timer} (hrun : timerRuns t = true) (htick : timerTick t = false) :
    t.cnt + 1#32 < t.period := by
  simp only [timerTick, hrun, Bool.true_and, BitVec.ule, decide_eq_false_iff_not] at htick
  have hperiod : t.period ≠ 0#32 := by
    simp only [timerRuns, Bool.and_eq_true, bne_iff_ne] at hrun
    exact hrun.2
  bv_omega

/-- After any cycle a timer is within its period, whatever its counter was: a period write clears the counter (R85), and
without one the counter is cleared or has not reached the period. -/
theorem timerBounded_timerNext (w : Option Word) (en : Bool) (t : Timer) :
    timerBounded ⟨en, w.getD t.period, timerNext w.isSome t⟩ := by
  cases w with
  | some v => exact timerBounded_of_cnt_eq_zero rfl
  | none =>
    cases hrun : timerRuns t with
    | false => exact timerBounded_of_cnt_eq_zero (by simp [timerNext, hrun])
    | true =>
      cases htick : timerTick t with
      | true => exact timerBounded_of_cnt_eq_zero (by simp [timerNext, htick])
      | false =>
        have hlt := succ_lt_period_of_no_tick hrun htick
        have hperiod : t.period ≠ 0#32 := by bv_omega
        simpa [timerBounded, timerNext, hrun, htick, hperiod] using hlt

/-! ### The invariant -/

theorem regsInv_reset : regsInv Regs.reset :=
  ⟨by decide, timerBounded_of_cnt_eq_zero rfl, timerBounded_of_cnt_eq_zero rfl⟩

theorem regsInv_nextRegs {s : State} (p : PortAct) (h : regsInv s.regs) : regsInv (nextRegs p s) :=
  ⟨countersLive_nextRegs p h.1, timerBounded_timerNext p.fastPeriod _ (fastTimer s.regs),
    timerBounded_timerNext p.slowPeriod _ (slowTimer s.regs)⟩

/-- Settles O18: a reset cycle gives the reset values, any other cycle the merge of R36, and both meet the invariant. -/
theorem stepKeepsInvariant : Obligations.StepKeepsInvariant := by
  intro s t hinv hstep
  obtain ⟨-, rfl⟩ | ⟨-, rfl⟩ := step_cases hstep
  · exact regsInv_reset
  · exact regsInv_nextRegs _ hinv

/-- Settles O19, which is the base case of R22. -/
theorem resetMeetsInvariant : Obligations.ResetMeetsInvariant := regsInv_reset

/-- The bound on a timer in numbers. -/
theorem timerBounded_iff (t : Timer) :
    timerBounded t ↔ (t.period ≠ 0#32 → t.cnt.toNat < t.period.toNat) ∧ (t.period = 0#32 → t.cnt = 0#32) := by
  by_cases h : t.period = 0#32 <;> simp [timerBounded, h, BitVec.lt_def]

/-- Settles O20: the invariant holds at the start of every cycle after reset, and is read lane by lane. -/
theorem reachableCounters : Obligations.ReachableCounters := by
  intro now later n r
  have hstart : regsInv (State.reset.present now later).regs := resetMeetsInvariant
  obtain ⟨hlive, hfast, hslow⟩ : regsInv r :=
    stateAt_induction (P := fun s => regsInv s.regs) stepKeepsInvariant hstart n
  obtain ⟨hfastLt, hfastZero⟩ := (timerBounded_iff _).1 hfast
  obtain ⟨hslowLt, hslowZero⟩ := (timerBounded_iff _).1 hslow
  refine ⟨?_, hfastLt, hfastZero, hslowLt, hslowZero, fun i hi => BitVec.getLsbD_of_ge _ _ hi⟩
  intro i hi
  have hne := (countersLive_iff r).1 hlive i hi
  exact ⟨by bv_omega, by bv_omega, (laneCount_ne_zero_iff _ _).1 hne⟩

/-! ### The reset cycle -/

/-- Settles O14: in a reset cycle every register takes its reset value and the outputs are 0. -/
theorem resetCycleValues : Obligations.ResetCycleValues := by
  intro s hrst
  refine ⟨after s, step_eq_next_after s, ?_⟩
  rw [after_of_rst hrst]
  and_intros <;> rfl

end Sys2Proof.Machine

/-! # Proofs of 20_memory.md: reads after writes (R35) and the writers of a register in one cycle (R36) -/

namespace Sys2Proof.Machine

/-! ### The operation on the port -/

/-- Decoding keeps the select value (R46, R54). -/
theorem opcode_decodePorts (op : Op) (w : Word) : opcode (decodePorts op w) = op := by
  unfold decodePorts
  split <;> simp only [opcode] <;> bv_omega

theorem presented_eq_decodePorts (s : State) : presented s = decodePorts s.pins.op s.pins.wdata :=
  decode_cmdOf _ _

theorem opcode_presented (s : State) : opcode (presented s) = s.pins.op := by
  rw [presented_eq_decodePorts, opcode_decodePorts]

theorem presented_of_op_wrfp {s : State} (h : s.pins.op = 0x5#4) : presented s = .wrfp s.pins.wdata := by
  rw [presented_eq_decodePorts, h]
  rfl

theorem presented_of_op_wrsp {s : State} (h : s.pins.op = 0x7#4) : presented s = .wrsp s.pins.wdata := by
  rw [presented_eq_decodePorts, h]
  rfl

/-! ### Each register that the port writes has one operation that writes it -/

theorem op_of_ctrl_write {s : State} {r : Regs} (h : (portAct (presented s) r).ctrl ≠ none) :
    s.pins.op = 0x3#4 := by
  rw [← opcode_presented]
  revert h
  cases presented s
  case wrctrl => exact fun _ => rfl
  all_goals exact absurd rfl

theorem op_of_fastPeriod_write {s : State} {r : Regs} (h : (portAct (presented s) r).fastPeriod ≠ none) :
    s.pins.op = 0x5#4 := by
  rw [← opcode_presented]
  revert h
  cases presented s
  case wrfp => exact fun _ => rfl
  all_goals exact absurd rfl

theorem op_of_slowPeriod_write {s : State} {r : Regs} (h : (portAct (presented s) r).slowPeriod ≠ none) :
    s.pins.op = 0x7#4 := by
  rw [← opcode_presented]
  revert h
  cases presented s
  case wrsp => exact fun _ => rfl
  all_goals exact absurd rfl

theorem isSome_ctrl_portAct (s : State) (r : Regs) : (portAct (presented s) r).ctrl.isSome = writesCtrl s := by
  unfold writesCtrl
  cases presented s <;> rfl

theorem isSome_fastPeriod_portAct (s : State) (r : Regs) :
    (portAct (presented s) r).fastPeriod.isSome = writesFastPeriod s := by
  unfold writesFastPeriod
  cases presented s <;> rfl

theorem isSome_slowPeriod_portAct (s : State) (r : Regs) :
    (portAct (presented s) r).slowPeriod.isSome = writesSlowPeriod s := by
  unfold writesSlowPeriod
  cases presented s <;> rfl

/-! ### Registers that only the port writes

`CTRL` and the two periods take part in the merge of R36 in the same way, so each fact is proved once, for a register
`reg` that the field `write` of the port's contribution replaces. -/

section PortRegister
variable {α : Type} {reg : Regs → α} {write : PortAct → Option α}
  (hreg : ∀ p s, reg (nextRegs p s) = (write p).getD (reg s.regs))
include hreg

theorem rst_or_write_of_reg_ne {s t : State} (hstep : step s = .next t) (hne : reg t.regs ≠ reg s.regs) :
    s.pins.rst = true ∨ write (portAct (presented s) s.regs) ≠ none := by
  obtain ⟨hrst, -⟩ | ⟨-, rfl⟩ := step_cases hstep
  · exact .inl hrst
  · refine .inr fun hnone => hne ?_
    rw [endCycle_regs, hreg, hnone, Option.getD_none]

theorem reg_after {s : State} (hrst : s.pins.rst = false) :
    reg (after s).regs = (write (portAct (presented s) s.regs)).getD (reg s.regs) := by
  rw [after_of_not_rst hrst, endCycle_regs, hreg]

/-- A value written in cycle 0 is in the register as long as there is neither a reset nor another write. -/
theorem reg_stateAt_of_last_write {s : State} {v : α} {n : Nat} (hrst : ∀ k ≤ n, (stateAt s k).pins.rst = false)
    (hwrite : write (portAct (presented s) s.regs) = some v)
    (hkept : ∀ k ≤ n, 1 ≤ k → (write (portAct (presented (stateAt s k)) (stateAt s k).regs)).isSome = false) :
    reg (stateAt s (n + 1)).regs = v := by
  induction n with
  | zero => rw [stateAt_succ, reg_after hreg (hrst 0 le_rfl), stateAt, hwrite, Option.getD_some]
  | succ n ih =>
    have hnone : write (portAct (presented (stateAt s (n + 1))) (stateAt s (n + 1)).regs) = none := by
      simpa using hkept (n + 1) le_rfl (by omega)
    rw [stateAt_succ, reg_after hreg (hrst (n + 1) le_rfl), hnone, Option.getD_none]
    exact ih (fun k hk => hrst k (by omega)) (fun k hk => hkept k (by omega))

end PortRegister

/-! ### The other writers of a cycle -/

theorem debNext_of_no_tick {s : State} (h : fastTick s.regs = false) : debNext s = debOf s.regs := by
  simp [debNext, h]

theorem rst_or_fastTick_of_deb_ne {s t : State} (hstep : step s = .next t) (hne : debOf t.regs ≠ debOf s.regs) :
    s.pins.rst = true ∨ t.out.fastTick = true := by
  obtain ⟨hrst, -⟩ | ⟨-, rfl⟩ := step_cases hstep
  · exact .inl hrst
  · refine .inr ?_
    by_contra hno
    exact hne (debNext_of_no_tick (Bool.eq_false_iff.2 hno))

/-- `WRFP` wins over the fast timer's counting (R79), and a reset cycle clears the counter too. -/
theorem fastCnt_of_op_wrfp {s t : State} (hstep : step s = .next t) (hop : s.pins.op = 0x5#4) :
    t.regs.fastCnt = 0#32 := by
  obtain ⟨-, rfl⟩ | ⟨-, rfl⟩ := step_cases hstep
  · rfl
  · rw [presented_of_op_wrfp hop]
    rfl

/-- `WRSP` wins over the slow timer's counting (R79), and a reset cycle clears the counter too. -/
theorem slowCnt_of_op_wrsp {s t : State} (hstep : step s = .next t) (hop : s.pins.op = 0x7#4) :
    t.regs.slowCnt = 0#32 := by
  obtain ⟨-, rfl⟩ | ⟨-, rfl⟩ := step_cases hstep
  · rfl
  · rw [presented_of_op_wrsp hop]
    rfl

theorem ticks_of_not_rst {s t : State} (hstep : step s = .next t) (hrst : s.pins.rst = false) :
    t.out.fastTick = timerTick (fastTimer s.regs) ∧ t.out.slowTick = timerTick (slowTimer s.regs) := by
  obtain ⟨h, -⟩ | ⟨-, rfl⟩ := step_cases hstep
  · simp [hrst] at h
  · exact ⟨rfl, rfl⟩

/-- Settles O13: what the port writes is what its operation's opcode says, and the rest of the merge of R36 is the
Debouncer's tick and the timers' counting, all from the state before the cycle. -/
theorem registerWriters : Obligations.RegisterWriters := by
  intro s t hstep
  refine ⟨fun h => ?_, fun h => ?_, fun h => ?_, rst_or_fastTick_of_deb_ne hstep,
    fastCnt_of_op_wrfp hstep, slowCnt_of_op_wrsp hstep, ticks_of_not_rst hstep⟩
  · exact (rst_or_write_of_reg_ne nextRegs_ctrl hstep h).imp_right op_of_ctrl_write
  · exact (rst_or_write_of_reg_ne nextRegs_fastPeriod hstep h).imp_right op_of_fastPeriod_write
  · exact (rst_or_write_of_reg_ne nextRegs_slowPeriod hstep h).imp_right op_of_slowPeriod_write

/-! ### Reads -/

/-- The response of a cycle is that of the operation on its port, from the registers of before (R49). -/
theorem rdata_outAt {s : State} {k : Nat} (hrst : (stateAt s k).pins.rst = false) :
    (outAt s k).rdata = (portAct (presented (stateAt s k)) (stateAt s k).regs).rdata := by
  rw [outAt, stateAt_succ, after_of_not_rst hrst]
  rfl

/-- Settles O44: a read answers the register, and the register holds the value written last. -/
theorem readsReturnLastWrite : Obligations.ReadsReturnLastWrite := by
  intro s n hrst
  have hrun : ∀ k ≤ n, (stateAt s k).pins.rst = false := fun k hk => hrst k (by omega)
  rw [rdata_outAt (hrst (n + 1) le_rfl)]
  refine ⟨fun e hwr hkept hrd => ?_, fun v hwr hkept hrd => ?_, fun v hwr hkept hrd => ?_⟩
  · have hctrl : (stateAt s (n + 1)).regs.ctrl = e :=
      reg_stateAt_of_last_write nextRegs_ctrl hrun (by rw [hwr]; rfl)
        fun k hk h1 => (isSome_ctrl_portAct _ _).trans (hkept k hk h1)
    rw [hrd, ← hctrl]
    rfl
  · rw [hrd]
    exact reg_stateAt_of_last_write nextRegs_fastPeriod hrun (by rw [hwr]; rfl)
      fun k hk h1 => (isSome_fastPeriod_portAct _ _).trans (hkept k hk h1)
  · rw [hrd]
    exact reg_stateAt_of_last_write nextRegs_slowPeriod hrun (by rw [hwr]; rfl)
      fun k hk h1 => (isSome_slowPeriod_portAct _ _).trans (hkept k hk h1)

end Sys2Proof.Machine

/-! # Proofs of 30_encoding.md: decoder, encoder and opcode table (R43 to R48, R55), and the operation of a step (R54) -/

namespace Sys2Proof

/-! ### Operands narrower than `wdata_i`: its low bits, extended with zeros (R45) -/

theorem extractLsb'_setWidth_32 {n : Nat} (hn : n ≤ 32) (v : BitVec n) : (v.setWidth 32).extractLsb' 0 n = v := by
  rw [← BitVec.setWidth_eq_extractLsb' hn, BitVec.setWidth_setWidth_of_le v hn, BitVec.setWidth_eq]

theorem setWidth_extractLsb'_eq_and (w : Word) (n : Nat) :
    (w.extractLsb' 0 n).setWidth 32 = w &&& BitVec.ofNat 32 (2 ^ n - 1) := by
  refine BitVec.eq_of_getLsbD_eq fun i hi => ?_
  rw [BitVec.getLsbD_and, BitVec.getLsbD_ofNat, Nat.testBit_two_pow_sub_one]
  simp [hi, Bool.and_comm]

theorem getLsbD_extractLsb'_zero (w : Word) {n i : Nat} (hi : i < n) :
    (w.extractLsb' 0 n).getLsbD i = w.getLsbD i := by
  simp [hi]

/-! ### The bits of `wdata_i` that a format uses (R44) -/

theorem and_usedBits_n (w : Word) : w &&& Format.n.usedBits = 0#32 := BitVec.and_zero

theorem and_usedBits_m (w : Word) : w &&& Format.m.usedBits = (maskOperand w).setWidth 32 :=
  (setWidth_extractLsb'_eq_and w 8).symm

theorem and_usedBits_c (w : Word) : w &&& Format.c.usedBits = (enOperand w).setWidth 32 :=
  (setWidth_extractLsb'_eq_and w 2).symm

theorem and_usedBits_w (w : Word) : w &&& Format.w.usedBits = w := BitVec.and_allOnes

/-! ### What decoding reads from `op_i` alone (R46) -/

theorem format_decodePorts (op : Op) (w : Word) : (decodePorts op w).format = (decodePorts op 0#32).format := by
  unfold decodePorts
  split <;> rfl

theorem mnemonic_decodePorts (op : Op) (w : Word) :
    (decodePorts op w).mnemonic = (decodePorts op 0#32).mnemonic := by
  unfold decodePorts
  split <;> rfl

/-- Every `op_i` and every `wdata_i` decode to a legal operation (R46, R48). -/
theorem wellFormed_decodePorts (op : Op) (w : Word) : (decodePorts op w).wellFormed = true := by
  have hop : (decodePorts op w).wellFormed = (decodePorts op 0#32).wellFormed := by
    unfold decodePorts
    split <;> rfl
  rw [hop]
  clear hop
  revert op
  decide

/-! ### Encoding and decoding (R43, R44) -/

/-- Settles O1: the decoder reads back the two fields that the encoder writes, and a reserved row keeps its select
value. -/
theorem decodeOfEncode : Obligations.DecodeOfEncode := by
  intro i hi
  rw [encode, decode_cmdOf]
  cases i with
  | chkclr mask => exact congrArg Instr.chkclr (extractLsb'_setWidth_32 (by decide) mask)
  | wrctrl en => exact congrArg Instr.wrctrl (extractLsb'_setWidth_32 (by decide) en)
  | rsvdAB op =>
    have hop : op = 0xA#4 ∨ op = 0xB#4 := by simpa [Instr.wellFormed] using hi
    obtain rfl | rfl := hop <;> rfl
  | rsvdCF op =>
    have hop : ((op = 0xC#4 ∨ op = 0xD#4) ∨ op = 0xE#4) ∨ op = 0xF#4 := by simpa [Instr.wellFormed] using hi
    obtain ((rfl | rfl) | rfl) | rfl := hop <;> rfl
  | _ => rfl

/-- The operand that decoding keeps is `wdata_i` without the bits its format ignores (R44, R48). -/
theorem operandWord_decodePorts (op : Op) (w : Word) :
    operandWord (decodePorts op w) = w &&& (decodePorts op w).format.usedBits := by
  unfold decodePorts
  split
  -- the branches of `CHKCLR`, `WRCTRL`, `WRFP` and `WRSP`; the others take no operand
  case h_2 => exact (and_usedBits_m w).symm
  case h_4 => exact (and_usedBits_c w).symm
  case h_6 => exact (and_usedBits_w w).symm
  case h_8 => exact (and_usedBits_w w).symm
  all_goals exact (and_usedBits_n w).symm

theorem encode_decodePorts (op : Op) (w : Word) :
    encode (decodePorts op w) = cmdOf op (w &&& (decodePorts op w).format.usedBits) := by
  rw [encode, Machine.opcode_decodePorts, operandWord_decodePorts]

/-- Settles O2, with the fields of the command word as the ports. -/
theorem encodeOfDecode : Obligations.EncodeOfDecode := fun _ =>
  ⟨wellFormed_decodePorts _ _, encode_decodePorts _ _⟩

/-- Decoding sees only the bits of `wdata_i` that the format of `op_i` uses (R48). -/
theorem decodePorts_and_usedBits (op : Op) (w : Word) :
    decodePorts op (w &&& (decodePorts op w).format.usedBits) = decodePorts op w := by
  rw [← decode_cmdOf, ← encode_decodePorts, decodeOfEncode _ (wellFormed_decodePorts op w)]

theorem decodePorts_congr {op : Op} {w v : Word}
    (h : w &&& (decodePorts op w).format.usedBits = v &&& (decodePorts op w).format.usedBits) :
    decodePorts op w = decodePorts op v := by
  have hfmt : (decodePorts op w).format = (decodePorts op v).format := by
    rw [format_decodePorts op w, format_decodePorts op v]
  rw [← decodePorts_and_usedBits op w, h, hfmt, decodePorts_and_usedBits]

/-! ### The opcode table (R55) -/

/-- A row selects a command word by its select field alone. -/
theorem rowSelects_eq_opField {row : OpcodeRow} (hrow : row ∈ opcodeTable) (cmd : Cmd) :
    rowSelects row cmd = rowSelects row (cmdOf (opField cmd) 0#32) := by
  rw [← Laws.rowSelects_cmdOf row _ (wdataField cmd) (Laws.tableMasks row hrow), cmdOf_fields]

/-- For each of the sixteen values of `op_i` one row is selected, which carries the operation's mnemonic and format. -/
theorem selected_rows_of_op (op : Op) :
    (opcodeTable.filter fun r => rowSelects r (cmdOf op 0#32)).map (fun r => (r.mnemonic, r.format)) =
      [((decodePorts op 0#32).mnemonic, (decodePorts op 0#32).format)] := by
  revert op
  decide

/-- Settles O4: table and decoder both look at `op_i` alone, so its sixteen values decide. -/
theorem exactlyOneTableRow : Obligations.ExactlyOneTableRow := by
  intro cmd
  obtain ⟨row, hrow, hnames⟩ := List.map_eq_singleton_iff.1 (selected_rows_of_op (opField cmd))
  obtain ⟨hmnemonic, hformat⟩ := Prod.mk.inj hnames
  refine ⟨row, ?_, ?_, ?_⟩
  · rw [List.filter_congr fun r hr => rowSelects_eq_opField hr cmd, hrow]
  · rw [hmnemonic, decode, mnemonic_decodePorts _ (wdataField cmd)]
  · rw [hformat, decode, format_decodePorts _ (wdataField cmd)]

/-! ### The opcode map (R46) -/

/-- Settles O5: each select value has its branch in the decoder, and the operand fields are the low bits of `wdata_i`. -/
theorem opcodeMapAndOperands : Obligations.OpcodeMapAndOperands := by
  intro w
  refine ⟨rfl, ⟨maskOperand w, rfl, fun i hi => getLsbD_extractLsb'_zero w hi⟩, rfl,
    ⟨enOperand w, rfl, fun i hi => getLsbD_extractLsb'_zero w hi⟩, rfl, rfl, rfl, rfl, rfl, rfl, ?_, ?_⟩
  · simp [decodePorts]
  · simp [decodePorts]

/-- Settles O6: the decoder evaluates on each of the twelve words. -/
theorem decodedCommandWords : Obligations.DecodedCommandWords := by
  and_intros <;> rfl

end Sys2Proof

namespace Sys2Proof.Machine

/-! ### The operation of a step (R54) -/

theorem step_of_rst {s : State} (hrst : s.pins.rst = true) : step s = resetCycle s := if_pos hrst

theorem step_of_not_rst {s : State} (hrst : s.pins.rst = false) : step s = exec (presented s) s := by
  rw [step, hrst]
  rfl

/-- The cycle of an operation does not look at the port again. -/
theorem exec_set_port (i : Instr) (s : State) (op : Op) (w : Word) :
    exec i { s with pins := { s.pins with op := op, wdata := w } } = exec i s := by
  rw [exec_eq_runCycle, exec_eq_runCycle]
  rfl

/-- A step sees of the port only the operation that it decodes to, and in a reset cycle not even that. -/
theorem step_set_port {s : State} {op : Op} {w : Word} (h : s.pins.rst = false → decodePorts op w = presented s) :
    step { s with pins := { s.pins with op := op, wdata := w } } = step s := by
  cases hrst : s.pins.rst with
  | true =>
    rw [step_of_rst hrst, step_of_rst (by exact hrst)]
    rfl
  | false =>
    rw [step_of_not_rst hrst, step_of_not_rst (by exact hrst), exec_set_port, presented_eq_decodePorts, h hrst]

/-- Settles O3: operand words that agree on the used bits decode alike, and a step sees only what the port decodes to. -/
theorem ignoredBitsHaveNoEffect : Obligations.IgnoredBitsHaveNoEffect := by
  refine ⟨fun op w v => decodePorts_congr, fun s v h => ?_, wellFormed_decodePorts⟩
  rw [presented_eq_decodePorts] at h
  refine step_set_port fun _ => ?_
  rw [presented_eq_decodePorts, decodePorts_congr h]

/-- Settles O7: without reset a step is the cycle of what the port decodes to; in a reset cycle the port plays no part. -/
theorem stepRunsPresentedOperation : Obligations.StepRunsPresentedOperation := by
  refine ⟨?_, fun s op w hrst => step_set_port fun h => ?_⟩
  · rintro s _ hrst rfl
    exact ⟨wellFormed_decodePorts _ _, step_of_not_rst hrst⟩
  · simp [hrst] at h

theorem presented_withFetchWord (s : State) (nbits w : Nat) :
    presented (s.withFetchWord nbits w) = decode (BitVec.ofNat 36 w) := by
  rw [presented, presentedCmd, withFetchWord_op, withFetchWord_wdata, cmdOf_fields]

/-- Settles O9: the word placed is the word on the port, and `withFetchWord` keeps the reset line low. -/
theorem fetchWordIsRun : Obligations.FetchWordIsRun := by
  intro s nbits w hw
  refine ⟨decode (BitVec.ofNat 36 w), if_pos hw, ?_⟩
  rw [step_of_not_rst (withFetchWord_rst s nbits w), presented_withFetchWord]

end Sys2Proof.Machine

/-! # Proofs of 40_debouncer.md: the sample (R56), the trigger (R57), one tick (R58 to R65), runs of ticks (R66, R67) -/

namespace Sys2Proof.Machine

/-! ### The logical sample (R56) -/

theorem sampledRaw_lane {s : State} {i : Nat} (hi : i < 8) (h : s.pins.rawFree.getLsbD i = false) :
    (sampledRaw s).getLsbD i = s.pins.raw.getLsbD i := by
  rw [sampledRaw, getLsbD_ofLanes, h]
  simp [hi]

theorem sampledRaw_eq_raw {s : State} (h : s.pins.rawFree = 0x00#8) : sampledRaw s = s.pins.raw :=
  BitVec.eq_of_getLsbD_eq fun i hi => sampledRaw_lane hi (by rw [h, BitVec.getLsbD_zero])

theorem logicalSample_lane {i : Nat} (hi : i < 8) (polarity raw : Mask) :
    (logicalSample polarity raw).getLsbD i = true ↔ raw.getLsbD i = polarity.getLsbD i := by
  simp [logicalSample, hi]

theorem logicalSample_active_high (raw : Mask) : logicalSample 0xFF#8 raw = raw := by
  rw [logicalSample, show 0xFF#8 = BitVec.allOnes 8 from rfl, BitVec.xor_allOnes, BitVec.not_not]

theorem logicalSample_active_low (raw : Mask) : logicalSample 0x00#8 raw = ~~~raw := by
  rw [logicalSample, BitVec.xor_zero]

/-- Settles O21: where a line has a stated level the sample is taken from `raw_i`, and `POLARITY` says how it reads. -/
theorem logicalSampleBits : Obligations.LogicalSampleBits := by
  refine ⟨fun s i hi hfree => ?_, fun s hfree => ?_⟩
  · rw [logicalSample_lane hi, sampledRaw_lane hi hfree]
  · rw [sampledRaw_eq_raw hfree]
    refine ⟨rfl, fun hpol => ?_, fun hpol => ?_⟩
    · rw [hpol, logicalSample_active_high]
    · rw [hpol, logicalSample_active_low]

/-! ### The trigger (R57) -/

theorem debNext_of_tick {s : State} (h : fastTick s.regs = true) :
    debNext s = debTick (debOf s.regs) (logicalSample s.polarity (sampledRaw s)) := if_pos h

theorem pressNow_of_tick {s : State} (h : fastTick s.regs = true) :
    pressNow s = pressMask (debOf s.regs) (logicalSample s.polarity (sampledRaw s)) := if_pos h

theorem pressNow_of_no_tick {s : State} (h : fastTick s.regs = false) : pressNow s = 0x00#8 := by
  simp [pressNow, h]

/-- Set wins over clear (R72): every press is pending afterwards. -/
theorem pendingNext_and_press (pending clr press : Mask) : pendingNext pending clr press &&& press = press := by
  ext i hi
  cases h : press[i] <;> simp [pendingNext, h]

/-- Without a press no bit becomes pending. -/
theorem pendingNext_no_press_and_not (pending clr : Mask) : pendingNext pending clr 0x00#8 &&& ~~~pending = 0x00#8 := by
  ext i hi
  cases h : pending[i] <;> simp [pendingNext, h]

/-- Settles O22: the Debouncer's next registers and the presses of a cycle without reset are those of a tick iff the
fast timer ticks; a reset cycle gives the reset values. -/
theorem debTickTrigger : Obligations.DebTickTrigger := by
  intro s
  refine ⟨after s, step_eq_next_after s, fun hrst htick => ?_, fun hrst htick => ?_, fun hrst => ?_⟩
  · rw [after_of_not_rst hrst, endCycle_regs, debOf_nextRegs, nextRegs_pending, debNext_of_tick htick,
      pressNow_of_tick htick]
    exact ⟨rfl, pendingNext_and_press _ _ _⟩
  · rw [after_of_not_rst hrst, endCycle_regs, debOf_nextRegs, nextRegs_pending, debNext_of_no_tick htick,
      pressNow_of_no_tick htick]
    exact ⟨rfl, pendingNext_no_press_and_not _ _⟩
  · rw [after_of_rst hrst]
    exact ⟨rfl, rfl⟩

/-! ### One lane of a tick (R58 to R62) -/

theorem laneStep_agree (c : Count) : laneStep c false = (3#2, false) := rfl

theorem laneStep_countdown : ∀ {c : Count}, 2 ≤ c.toNat → laneStep c true = (c - 1#2, false) := by decide

theorem laneStep_flip : ∀ {c : Count}, c.toNat ≤ 1 → laneStep c true = (3#2, true) := by decide

/-- A press is a lane that becomes pressed (R62). -/
theorem press_lane_eq_rise (d : Deb) (m : Mask) {i : Nat} (hi : i < 8) :
    (pressMask d m).getLsbD i = ((debTick d m).state.getLsbD i && !d.state.getLsbD i) := by
  rw [press_lane d m i hi, state_debTick d m i hi]
  cases d.state.getLsbD i <;> simp

section Lane
variable {d : Deb} {m : Mask} {i : Nat} (hi : i < 8)
include hi

/-- An agreeing sample reloads the counter and does nothing else (R59). -/
theorem lane_of_agree (h : m.getLsbD i = d.state.getLsbD i) :
    laneCount (debTick d m) i = 3#2 ∧ (debTick d m).state.getLsbD i = d.state.getLsbD i := by
  have hx : (disagreement d m).getLsbD i = false := by simp [disagreement_lane, h]
  rw [laneCount_debTick d m i hi, state_debTick d m i hi, laneResult, hx, laneStep_agree]
  exact ⟨rfl, Bool.xor_false _⟩

/-- A disagreeing sample takes a counter of 2 or 3 down by one (R59). -/
theorem lane_of_countdown (h : m.getLsbD i ≠ d.state.getLsbD i) (hc : 2 ≤ (laneCount d i).toNat) :
    (laneCount (debTick d m) i).toNat = (laneCount d i).toNat - 1 ∧
      (debTick d m).state.getLsbD i = d.state.getLsbD i := by
  have hx : (disagreement d m).getLsbD i = true := by simpa [disagreement_lane] using h
  rw [laneCount_debTick d m i hi, state_debTick d m i hi, laneResult, hx, laneStep_countdown hc]
  exact ⟨by bv_omega, Bool.xor_false _⟩

/-- A disagreeing sample at a counter of 1 or 0 flips the lane to the sampled level, with the counter back at 3
(R60, R61). -/
theorem lane_of_flip (h : m.getLsbD i ≠ d.state.getLsbD i) (hc : (laneCount d i).toNat ≤ 1) :
    laneCount (debTick d m) i = 3#2 ∧ (debTick d m).state.getLsbD i = m.getLsbD i := by
  have hx : (disagreement d m).getLsbD i = true := by simpa [disagreement_lane] using h
  rw [laneCount_debTick d m i hi, state_debTick d m i hi, laneResult, hx, laneStep_flip hc]
  exact ⟨rfl, by simpa using (Bool.eq_not_of_ne h).symm⟩

theorem press_eq_false_of_state_eq (h : (debTick d m).state.getLsbD i = d.state.getLsbD i) :
    (pressMask d m).getLsbD i = false := by
  rw [press_lane_eq_rise d m hi, h, Bool.and_not_self]

theorem press_eq_false_of_pressed (h : d.state.getLsbD i = true) : (pressMask d m).getLsbD i = false := by
  rw [press_lane_eq_rise d m hi, h, Bool.not_true, Bool.and_false]

/-- A lane with a counter of 2 or 3 does not flip, and its counter loses at most one. -/
theorem lane_of_two_le_count (hc : 2 ≤ (laneCount d i).toNat) :
    (debTick d m).state.getLsbD i = d.state.getLsbD i ∧
      (laneCount d i).toNat ≤ (laneCount (debTick d m) i).toNat + 1 := by
  by_cases h : m.getLsbD i = d.state.getLsbD i
  · obtain ⟨hcount, hstate⟩ := lane_of_agree hi h
    exact ⟨hstate, by bv_omega⟩
  · obtain ⟨hcount, hstate⟩ := lane_of_countdown hi h hc
    exact ⟨hstate, by omega⟩

/-- A lane flips only to the sampled level, and only at a counter of 1 or 0. -/
theorem disagree_and_count_le_one_of_flip (h : (debTick d m).state.getLsbD i ≠ d.state.getLsbD i) :
    m.getLsbD i ≠ d.state.getLsbD i ∧ (laneCount d i).toNat ≤ 1 := by
  refine ⟨fun hagree => h (lane_of_agree hi hagree).2, ?_⟩
  by_contra hc
  exact h (lane_of_two_le_count hi (by omega)).1

/-- A counter below 3 after a tick was counted down in it. -/
theorem disagree_of_count_lt_three (h : (laneCount (debTick d m) i).toNat < 3) :
    m.getLsbD i ≠ d.state.getLsbD i ∧ (debTick d m).state.getLsbD i = d.state.getLsbD i ∧
      (laneCount d i).toNat = (laneCount (debTick d m) i).toNat + 1 := by
  have hload : laneCount (debTick d m) i ≠ 3#2 := by bv_omega
  have hx : m.getLsbD i ≠ d.state.getLsbD i := fun hagree => hload (lane_of_agree hi hagree).1
  have hc : 2 ≤ (laneCount d i).toNat := by
    by_contra hc
    exact hload (lane_of_flip hi hx (by omega)).1
  obtain ⟨hcount, hstate⟩ := lane_of_countdown hi hx hc
  exact ⟨hx, hstate, by omega⟩

end Lane

/-- Settles O23: the three rows of the lane table, and a press is a rise of the committed state. -/
theorem laneOfDebTick : Obligations.LaneOfDebTick := by
  intro d sample i hi
  have hx : (disagreement d sample).getLsbD i = true ↔ sample.getLsbD i ≠ d.state.getLsbD i := by
    simp [disagreement_lane]
  refine ⟨hx, fun hagree => ?_, fun hdis hc => ?_, fun hdis hc => ?_⟩
  · have heq : sample.getLsbD i = d.state.getLsbD i := by simpa [disagreement_lane] using hagree
    obtain ⟨hcount, hstate⟩ := lane_of_agree hi heq
    exact ⟨congrArg BitVec.toNat hcount, hstate, press_eq_false_of_state_eq hi hstate⟩
  · obtain ⟨hcount, hstate⟩ := lane_of_countdown hi (hx.1 hdis) hc
    exact ⟨hcount, hstate, press_eq_false_of_state_eq hi hstate⟩
  · obtain ⟨hcount, hstate⟩ := lane_of_flip hi (hx.1 hdis) hc
    refine ⟨congrArg BitVec.toNat hcount, hstate, hstate ▸ hx.1 hdis, ?_⟩
    rw [press_lane_eq_rise d sample hi, hstate, Bool.eq_not_of_ne (hx.1 hdis), Bool.and_self]

/-! ### The bit-sliced form (R64) -/

/-- The lane table in bits: `hi` and `lo` of the counter, `x` the disagreement. -/
theorem laneStep_bits : ∀ hi lo x : Bool, laneStep (BitVec.ofBool hi ++ BitVec.ofBool lo) x =
    (BitVec.ofBool (!(x && hi && !lo)) ++ BitVec.ofBool (!(x && hi && lo)), x && !hi) := by
  decide

/-- Settles O24: lane `i` of each equation is the lane table in bits. -/
theorem bitSlicedForm : Obligations.BitSlicedForm := by
  intro d sample
  refine ⟨BitVec.eq_of_getLsbD_eq fun i hi => ?_, BitVec.eq_of_getLsbD_eq fun i hi => ?_,
    BitVec.eq_of_getLsbD_eq fun i hi => ?_⟩
  · rw [flip_lane d sample i hi, laneResult, laneCount, laneStep_bits]
    simp [slicedFlip, hi]
  · rw [← laneCount_hi, laneCount_debTick d sample i hi, laneResult, laneCount, laneStep_bits,
      (ofBool_append_bits _ _).2]
    simp [slicedHi, hi]
  · rw [← laneCount_lo, laneCount_debTick d sample i hi, laneResult, laneCount, laneStep_bits,
      (ofBool_append_bits _ _).1]
    simp [slicedLo, hi]

/-! ### Lanes are independent and alike (R63) -/

theorem laneResult_congr {d e : Deb} {m n : Mask} {i j : Nat} (hsample : m.getLsbD i = n.getLsbD j)
    (hstate : d.state.getLsbD i = e.state.getLsbD j) (hhi : d.hi.getLsbD i = e.hi.getLsbD j)
    (hlo : d.lo.getLsbD i = e.lo.getLsbD j) : laneResult d m i = laneResult e n j := by
  simp only [laneResult, laneCount, disagreement_lane, hsample, hstate, hhi, hlo]

/-- Settles O25: all that a lane writes is made of its lane result and its own state bit. -/
theorem lanesAreIndependentAndAlike : Obligations.LanesAreIndependentAndAlike := by
  intro d e m n i j hi hj hsample hstate hhi hlo
  have hresult := laneResult_congr hsample hstate hhi hlo
  have hcount : laneCount (debTick d m) i = laneCount (debTick e n) j := by
    rw [laneCount_debTick d m i hi, laneCount_debTick e n j hj, hresult]
  refine ⟨?_, ?_, ?_, ?_⟩
  · rw [state_debTick d m i hi, state_debTick e n j hj, hresult, hstate]
  · rw [← laneCount_hi, ← laneCount_hi, hcount]
  · rw [← laneCount_lo, ← laneCount_lo, hcount]
  · rw [press_lane d m i hi, press_lane e n j hj, hresult, hstate]

/-! ### Runs of ticks -/

theorem runTicks_append (d : Deb) (ms ns : List Mask) : runTicks d (ms ++ ns) = runTicks (runTicks d ms) ns := by
  induction ms generalizing d with
  | nil => rfl
  | cons m ms ih => exact ih (debTick d m)

section Run
variable {d : Deb} {i : Nat} (hi : i < 8)
include hi

/-- Fewer ticks than the counter says cannot flip the lane, and take at most one each from the counter. -/
theorem lane_runTicks_of_length_lt_count {ms : List Mask} (h : ms.length < (laneCount d i).toNat) :
    (runTicks d ms).state.getLsbD i = d.state.getLsbD i ∧
      (laneCount d i).toNat ≤ (laneCount (runTicks d ms) i).toNat + ms.length := by
  induction ms generalizing d with
  | nil => exact ⟨rfl, le_rfl⟩
  | cons m ms ih =>
    rw [List.length_cons] at h ⊢
    obtain ⟨hstate, hcount⟩ := lane_of_two_le_count (d := d) (m := m) hi (by omega)
    obtain ⟨hstates, hcounts⟩ := ih (d := debTick d m) (by omega)
    exact ⟨hstates.trans hstate, by rw [runTicks]; omega⟩

/-- Agreeing samples never flip a lane. -/
theorem state_runTicks_of_agree {ms : List Mask} (h : ∀ x ∈ ms, x.getLsbD i = d.state.getLsbD i) :
    (runTicks d ms).state.getLsbD i = d.state.getLsbD i := by
  induction ms generalizing d with
  | nil => rfl
  | cons m ms ih =>
    obtain ⟨hm, hms⟩ := List.forall_mem_cons.1 h
    have hstate := (lane_of_agree hi hm).2
    rw [runTicks, ih (by simpa only [hstate] using hms), hstate]

/-! ### Glitches (R66) -/

/-- A lane flips in a tick only if that tick and the two before it sampled the other level: the counter at the flip was
1, so the two ticks before counted down, from 3. -/
theorem opposite_samples_of_flip {m₁ m₂ m₃ : Mask}
    (h : (runTicks d [m₁, m₂, m₃]).state.getLsbD i ≠ (runTicks d [m₁, m₂]).state.getLsbD i) :
    (runTicks d [m₁, m₂]).state.getLsbD i = d.state.getLsbD i ∧
      (runTicks d [m₁]).state.getLsbD i = d.state.getLsbD i ∧
      m₁.getLsbD i ≠ d.state.getLsbD i ∧ m₂.getLsbD i ≠ d.state.getLsbD i ∧ m₃.getLsbD i ≠ d.state.getLsbD i := by
  simp only [runTicks] at h ⊢
  obtain ⟨hx₃, hc₃⟩ := disagree_and_count_le_one_of_flip hi h
  obtain ⟨hx₂, hs₂, hc₂⟩ := disagree_of_count_lt_three (d := debTick d m₁) (m := m₂) hi (by omega)
  obtain ⟨hx₁, hs₁, -⟩ := disagree_of_count_lt_three hi (d := d) (m := m₁) (by omega)
  rw [hs₁] at hs₂ hx₂
  rw [hs₂] at hx₃
  exact ⟨hs₂, hs₁, hx₁, hx₂, hx₃⟩

/-- A lane at rest does not flip in its first two ticks. -/
theorem state_debTick_of_length_lt_two (hc : laneCount d i = 3#2) {ms : List Mask} (h : ms.length < 2) (m : Mask) :
    (debTick (runTicks d ms) m).state.getLsbD i = (runTicks d ms).state.getLsbD i := by
  have hc3 : (laneCount d i).toNat = 3 := congrArg BitVec.toNat hc
  have hcount := (lane_runTicks_of_length_lt_count (d := d) (ms := ms) hi (by omega)).2
  exact (lane_of_two_le_count hi (by omega)).1

theorem press_eq_false_of_length_lt_two (hc : laneCount d i = 3#2) {ms : List Mask} (h : ms.length < 2) (m : Mask) :
    (pressMask (runTicks d ms) m).getLsbD i = false :=
  press_eq_false_of_state_eq hi (state_debTick_of_length_lt_two hi hc h m)

/-- Three opposite samples take a lane at rest from 3 down to the flip, which the third makes. -/
theorem flip_of_three_opposite_samples (hc : laneCount d i = 3#2) {m₁ m₂ m : Mask}
    (h₁ : m₁.getLsbD i ≠ d.state.getLsbD i) (h₂ : m₂.getLsbD i ≠ d.state.getLsbD i)
    (h₃ : m.getLsbD i ≠ d.state.getLsbD i) :
    (runTicks d [m₁, m₂]).state.getLsbD i = d.state.getLsbD i ∧
      (runTicks d [m₁, m₂, m]).state.getLsbD i = m.getLsbD i := by
  have hc3 : (laneCount d i).toNat = 3 := congrArg BitVec.toNat hc
  obtain ⟨hc₁, hs₁⟩ := lane_of_countdown hi h₁ (by omega)
  rw [← hs₁] at h₂ h₃ ⊢
  obtain ⟨hc₂, hs₂⟩ := lane_of_countdown hi h₂ (by omega)
  rw [← hs₂] at h₃
  exact ⟨hs₂, (lane_of_flip hi h₃ (by omega)).2⟩

/-- From rest, a flip ends three opposite samples, through which the state stood. -/
theorem exists_opposite_samples_of_flip (hc : laneCount d i = 3#2) {ms : List Mask} {m : Mask}
    (h : (debTick (runTicks d ms) m).state.getLsbD i ≠ (runTicks d ms).state.getLsbD i) :
    ∃ (l : List Mask) (m₁ m₂ : Mask), ms = l ++ [m₁, m₂] ∧
      (runTicks d ms).state.getLsbD i = (runTicks d l).state.getLsbD i ∧
      m₁.getLsbD i ≠ (runTicks d ms).state.getLsbD i ∧ m₂.getLsbD i ≠ (runTicks d ms).state.getLsbD i ∧
      m.getLsbD i ≠ (runTicks d ms).state.getLsbD i := by
  have hlen : 2 ≤ ms.length := by
    by_contra hlen
    exact h (state_debTick_of_length_lt_two hi hc (by omega) m)
  obtain ⟨l, m₁, m₂, rfl⟩ : ∃ l m₁ m₂, ms = l ++ [m₁, m₂] := by
    obtain ⟨m₁, m₂, hlast⟩ := List.length_eq_two.1 (show (ms.drop (ms.length - 2)).length = 2 by simp; omega)
    exact ⟨ms.take (ms.length - 2), m₁, m₂, by rw [← hlast, List.take_append_drop]⟩
  rw [runTicks_append] at h ⊢
  obtain ⟨hstate, -, h₁, h₂, h₃⟩ := opposite_samples_of_flip hi h
  rw [hstate]
  exact ⟨l, m₁, m₂, rfl, rfl, h₁, h₂, h₃⟩

end Run

/-- Settles O26: a flip needs three opposite samples, and two samples are too few to take a counter of 3 to the flip
before the agreeing one reloads it. -/
theorem glitchRejection : Obligations.GlitchRejection := by
  refine ⟨fun d m₁ m₂ m₃ i hi h => opposite_samples_of_flip hi h, fun d ms m i hi hrest hlen hagree => ?_⟩
  have hc3 : (laneCount d i).toNat = 3 := congrArg BitVec.toNat hrest
  have hkept := (lane_runTicks_of_length_lt_count (d := d) (ms := ms) hi (by omega)).1
  obtain ⟨hcount, hstate⟩ := lane_of_agree (d := runTicks d ms) hi (hagree.trans hkept.symm)
  rw [runTicks_append]
  refine ⟨hcount, hstate.trans hkept, fun k hk => ?_, press_eq_false_of_state_eq hi hstate⟩
  exact press_eq_false_of_length_lt_two hi hrest (by rw [List.length_take]; omega) _

/-! ### Presses (R67) -/

/-- Settles O27: the first three samples count a lane at rest from 3 down to the flip, and a pressed lane that is
sampled pressed stays as it is. -/
theorem oneEventPerPress : Obligations.OneEventPerPress := by
  intro d ms m i hi hreleased hrest hms hm
  have hopp {x : Mask} (hx : x.getLsbD i = true) : x.getLsbD i ≠ d.state.getLsbD i := by
    rw [hx, hreleased]
    decide
  match ms with
  | [] => simp [press_eq_false_of_length_lt_two hi hrest (ms := []) (by simp)]
  | [a] => simp [press_eq_false_of_length_lt_two hi hrest (ms := [a]) (by simp)]
  | [a, b] =>
    obtain ⟨hbefore, hafter⟩ :=
      flip_of_three_opposite_samples hi hrest (hopp (hms a (by simp))) (hopp (hms b (by simp))) (hopp hm)
    have hpress : (pressMask (runTicks d [a, b]) m).getLsbD i = true := by
      rw [press_lane_eq_rise _ _ hi, hbefore, hreleased, Bool.not_false, Bool.and_true]
      exact hafter.trans hm
    simp [hpress]
  | a :: b :: c :: rest =>
    simp only [List.forall_mem_cons] at hms
    obtain ⟨ha, hb, hc, hheld⟩ := hms
    have hpressed : (runTicks d [a, b, c]).state.getLsbD i = true :=
      (flip_of_three_opposite_samples hi hrest (hopp ha) (hopp hb) (hopp hc)).2.trans hc
    have hstays : (runTicks (runTicks d [a, b, c]) rest).state.getLsbD i = true :=
      (state_runTicks_of_agree hi fun x hx => (hheld x hx).trans hpressed.symm).trans hpressed
    rw [← runTicks_append] at hstays
    have hpress : (pressMask (runTicks d (a :: b :: c :: rest)) m).getLsbD i = false :=
      press_eq_false_of_pressed hi hstays
    simp [hpress]

/-- A lane that was pressed at rest and is released has seen three released samples in a row. -/
theorem exists_three_released {d : Deb} {i : Nat} (hi : i < 8) (hpressed : d.state.getLsbD i = true)
    (hrest : laneCount d i = 3#2) {ms : List Mask} (hreleased : (runTicks d ms).state.getLsbD i = false) :
    ∃ as bs : List Mask, ∃ r₁ r₂ r₃ : Mask, ms = as ++ [r₁, r₂, r₃] ++ bs ∧
      r₁.getLsbD i = false ∧ r₂.getLsbD i = false ∧ r₃.getLsbD i = false := by
  induction ms using List.reverseRecOn with
  | nil => exact absurd hpressed (by simpa [runTicks] using hreleased)
  | append_singleton ms r ih =>
    rw [runTicks_append] at hreleased
    cases hbefore : (runTicks d ms).state.getLsbD i with
    | false =>
      obtain ⟨as, bs, r₁, r₂, r₃, rfl, hr⟩ := ih hbefore
      exact ⟨as, bs ++ [r], r₁, r₂, r₃, by simp, hr⟩
    | true =>
      obtain ⟨l, a, b, rfl, hstate, ha, hb, hr⟩ := exists_opposite_samples_of_flip hi hrest
        (ms := ms) (m := r) (by rw [hbefore]; exact Bool.eq_false_iff.1 hreleased)
      refine ⟨l, [], a, b, r, by simp, ?_⟩
      simpa [hbefore] using And.intro ha (And.intro hb hr)

/-- Settles O28: the press is a flip to pressed, so three pressed samples end there; the lane was released before them,
so three released ones came earlier. -/
theorem nextPressNeedsRelease : Obligations.NextPressNeedsRelease := by
  intro d ms m i hi hpressed hrest hpress
  obtain ⟨hafter, hbefore⟩ : (debTick (runTicks d ms) m).state.getLsbD i = true ∧
      (runTicks d ms).state.getLsbD i = false := by simpa [press_lane_eq_rise _ _ hi] using hpress
  obtain ⟨l, p₁, p₂, rfl, hstate, hp₁, hp₂, hm⟩ := exists_opposite_samples_of_flip hi hrest
    (ms := ms) (m := m) (by rw [hbefore, hafter]; decide)
  obtain ⟨as, bs, r₁, r₂, r₃, rfl, hr₁, hr₂, hr₃⟩ := exists_three_released hi hpressed hrest (hstate ▸ hbefore)
  rw [hbefore] at hp₁ hp₂ hm
  exact ⟨as, bs, r₁, r₂, r₃, p₁, p₂, rfl, hr₁, hr₂, hr₃, by simpa using hp₁, by simpa using hp₂, by simpa using hm⟩

end Sys2Proof.Machine

/-! # Proofs of 41_edge_event_store.md: `CHKCLR` (R71), the next value of `PENDING` (R72, R73), runs (R74, R75, R77) -/

namespace Sys2Proof.Machine

/-! ### One cycle of `PENDING`, bit by bit (R72) -/

theorem getLsbD_zext32_mask (v : Mask) (i : Nat) : (zext32 v).getLsbD i = v.getLsbD i := by
  by_cases hi : i < 8
  · simp [zext32, show i < 32 by omega]
  · simp [zext32, show 8 ≤ i by omega]

theorem pendingNext_lane {i : Nat} (hi : i < 8) (pending clr press : Mask) :
    (pendingNext pending clr press).getLsbD i =
      ((pending.getLsbD i && !clr.getLsbD i) || press.getLsbD i) := by
  simp [pendingNext, hi]

/-- The port clears exactly the channels that a `CHKCLR` on it selects. -/
theorem clr_portAct (s : State) (r : Regs) : (portAct (presented s) r).clr = selectedChannels s := by
  unfold selectedChannels
  cases presented s <;> rfl

theorem pending_after_of_rst {s : State} (hrst : s.pins.rst = true) : (after s).regs.pending = 0x00#8 := by
  rw [after_of_rst hrst]
  rfl

theorem pending_after_of_not_rst {s : State} (hrst : s.pins.rst = false) :
    (after s).regs.pending = pendingNext s.regs.pending (selectedChannels s) (pressNow s) := by
  rw [after_of_not_rst hrst, endCycle_regs, nextRegs_pending, clr_portAct]

theorem pending_lane_after {s : State} {i : Nat} (hi : i < 8) (hrst : s.pins.rst = false) :
    (after s).regs.pending.getLsbD i =
      ((s.regs.pending.getLsbD i && !(selectedChannels s).getLsbD i) || (pressNow s).getLsbD i) := by
  rw [pending_after_of_not_rst hrst, pendingNext_lane hi]

theorem fastTick_of_press {s : State} {i : Nat} (h : (pressNow s).getLsbD i = true) : fastTick s.regs = true := by
  by_contra hno
  rw [pressNow_of_no_tick (Bool.eq_false_iff.2 hno), BitVec.getLsbD_zero] at h
  exact Bool.false_ne_true h

/-! ### The channels that the port selects (R71) -/

theorem selectedChannels_of_chkclr {s : State} {m : Mask} (h : presented s = .chkclr m) : selectedChannels s = m := by
  simp [selectedChannels, h]

/-- Only a `CHKCLR` selects a channel. -/
theorem presented_of_selected {s : State} {i : Nat} (h : (selectedChannels s).getLsbD i = true) :
    presented s = .chkclr (selectedChannels s) := by
  unfold selectedChannels at h ⊢
  split at h
  · assumption
  · simp at h

theorem selectedChannels_lane {i : Nat} (hi : i < 8) (s : State) :
    (selectedChannels s).getLsbD i = (s.pins.op == 0x1#4 && s.pins.wdata.getLsbD i) := by
  by_cases hop : s.pins.op = 0x1#4
  · have hpresented : presented s = .chkclr (maskOperand s.pins.wdata) := by
      rw [presented_eq_decodePorts, hop]
      rfl
    rw [selectedChannels_of_chkclr hpresented, maskOperand, getLsbD_extractLsb'_zero _ hi]
    simp [hop]
  · have hnone : (selectedChannels s).getLsbD i = false := by
      by_contra hsel
      refine hop ?_
      rw [← opcode_presented, presented_of_selected (Bool.eq_true_of_not_eq_false hsel)]
      rfl
    simp [hnone, hop]

/-- A `CHKCLR` answers, for each channel it selects, the pending bit of before. -/
theorem rdata_lane_of_selected {s : State} {i : Nat} (hrst : s.pins.rst = false)
    (hsel : (selectedChannels s).getLsbD i = true) :
    (after s).out.rdata.getLsbD i = s.regs.pending.getLsbD i := by
  rw [after_of_not_rst hrst, presented_of_selected hsel]
  simp [cycleOutputs, portAct, getLsbD_zext32_mask, pendingHits, hsel]

/-! ### One cycle -/

/-- Settles O30: `CHKCLR`'s cycle differs from `NOP`'s in the response and in the mask that is cleared. -/
theorem chkclrResult : Obligations.ChkclrResult := by
  refine ⟨fun w => congrArg Instr.chkclr (BitVec.setWidth_eq_extractLsb' (by decide)).symm, fun mask s => ?_⟩
  have hbit (i : Nat) : (zext32 (pendingHits s.regs.pending mask)).getLsbD i =
      (s.regs.pending.getLsbD i && mask.getLsbD i) := by
    rw [getLsbD_zext32_mask, pendingHits, BitVec.getLsbD_and]
  refine ⟨_, _, rfl, rfl, fun i _ => hbit i, fun i hi => ?_, fun i hi => pendingNext_lane hi _ _ _, rfl⟩
  exact (hbit i).trans (by rw [BitVec.getLsbD_of_ge mask i hi, Bool.and_false])

/-- Settles O31: the merge of R72 with the selected channels read off the port. -/
theorem pendingNextValue : Obligations.PendingNextValue := by
  intro s hrst
  refine ⟨after s, step_eq_next_after s, fun i hi => ?_⟩
  have hsel := selectedChannels_lane hi s
  refine ⟨by rw [pending_lane_after hi hrst, hsel], fun hop hbit => rdata_lane_of_selected hrst ?_⟩
  rw [hsel, hop, hbit]
  rfl

/-- Settles O32: a reset cycle only clears, and in any other cycle the merge of R72 changes a bit in two ways. -/
theorem onlyTheseChangePending : Obligations.OnlyTheseChangePending := by
  intro s t i hi hstep
  obtain rfl : after s = t := by simpa [step_eq_next_after] using hstep
  cases hrst : s.pins.rst with
  | true => simp [pending_after_of_rst hrst]
  | false =>
    rw [pending_lane_after hi hrst]
    refine ⟨fun hbefore hcleared => ?_, fun hbefore hset => ?_⟩
    · simp only [hbefore, Bool.true_and, Bool.or_eq_false_iff, Bool.not_eq_false'] at hcleared
      exact .inr hcleared.1
    · have hpress : (pressNow s).getLsbD i = true := by simpa [hbefore] using hset
      exact ⟨rfl, fastTick_of_press hpress, hpress⟩

/-! ### Runs -/

/-- The merge of R72 on a part `m` of the channels. -/
theorem pendingNext_and (pending clr press m : Mask) :
    pendingNext pending clr press &&& m = (pending &&& m &&& ~~~clr) ||| (press &&& m) := by
  ext i hi
  cases h : m[i] <;> simp [pendingNext, h]

/-- After any cycle nothing of `m` is pending if the cycle pressed none of it and cleared what was pending of it. -/
theorem pending_and_after_eq_zero {s : State} {m : Mask} (hpress : s.pins.rst = false → pressNow s &&& m = 0x00#8)
    (hleft : s.regs.pending &&& m &&& ~~~selectedChannels s = 0x00#8) : (after s).regs.pending &&& m = 0x00#8 := by
  cases hrst : s.pins.rst with
  | true => rw [pending_after_of_rst hrst, BitVec.zero_and]
  | false => rw [pending_after_of_not_rst hrst, pendingNext_and, hleft, hpress hrst, BitVec.or_zero]

/-- Nothing of `m` is pending after a `CHKCLR m`, for as long as nothing of `m` is pressed. -/
theorem pending_and_stateAt_eq_zero {s : State} {n : Nat} {m : Mask} (hcall : presented s = .chkclr m)
    (hpress : ∀ k ≤ n, (stateAt s k).pins.rst = false → pressNow (stateAt s k) &&& m = 0x00#8) :
    (stateAt s (n + 1)).regs.pending &&& m = 0x00#8 := by
  induction n with
  | zero =>
    refine pending_and_after_eq_zero (hpress 0 le_rfl) ?_
    rw [stateAt, selectedChannels_of_chkclr hcall, BitVec.and_assoc, BitVec.and_not_self]
    exact BitVec.and_zero
  | succ n ih =>
    refine pending_and_after_eq_zero (hpress (n + 1) le_rfl) ?_
    rw [ih fun k hk => hpress k (by omega), BitVec.zero_and]

/-- Settles O33: the second call answers what is pending of `m`, which is nothing. -/
theorem secondCallReturnsEmpty : Obligations.SecondCallReturnsEmpty := by
  intro s n m _ hfirst hpress hrst hsecond
  have hempty := pending_and_stateAt_eq_zero hfirst hpress
  rw [rdata_outAt hrst, hsecond, portAct, pendingHits, hempty]
  rfl

/-- Over cycles without reset in which no `CHKCLR` selects the channel, presses are gathered in its bit, and nothing
else happens to it. -/
theorem pending_stateAt_of_unselected {s : State} {n i : Nat} (hi : i < 8)
    (h : ∀ k < n, (stateAt s k).pins.rst = false ∧ (selectedChannels (stateAt s k)).getLsbD i = false) :
    (stateAt s n).regs.pending.getLsbD i = true ↔
      s.regs.pending.getLsbD i = true ∨ ∃ k < n, (pressNow (stateAt s k)).getLsbD i = true := by
  induction n with
  | zero => simp [stateAt]
  | succ n ih =>
    obtain ⟨hrst, hsel⟩ := h n (by omega)
    rw [stateAt_succ, pending_lane_after hi hrst, hsel, Bool.not_false, Bool.and_true, Bool.or_eq_true,
      ih fun k hk => h k (by omega), or_assoc, Nat.exists_lt_succ_right]

/-- Settles O34: the bit that was set is among those gathered. -/
theorem unselectedEventsStay : Obligations.UnselectedEventsStay := fun _ _ _ hi hset h =>
  (pending_stateAt_of_unselected hi h).2 (.inl hset)

/-- Settles O35: after the selecting call the bit is a press of that very cycle, and later presses are gathered
in it. -/
theorem eventsMerge : Obligations.EventsMerge := by
  intro s n i hi hsel hrst hkept
  have hfirst : (after s).regs.pending.getLsbD i = (pressNow s).getLsbD i := by
    rw [pending_lane_after hi (s := s) (hrst 0 (by omega)), hsel, Bool.not_true, Bool.and_false, Bool.false_or]
  have hlater : ∀ k < n, (stateAt (after s) k).pins.rst = false ∧
      (selectedChannels (stateAt (after s) k)).getLsbD i = false := by
    intro k hk
    rw [← stateAt_after]
    exact ⟨hrst (k + 1) hk, hkept (k + 1) hk (by omega)⟩
  have hmerged : (stateAt s (n + 1)).regs.pending.getLsbD i = true ↔
      ∃ k ≤ n, (pressNow (stateAt s k)).getLsbD i = true := by
    simp only [← Nat.lt_succ_iff, Nat.exists_lt_succ_left, stateAt_after]
    rw [pending_stateAt_of_unselected hi hlater, hfirst]
    rfl
  refine ⟨hmerged, fun hrstNext hselNext => ?_⟩
  rw [outAt, stateAt_succ, rdata_lane_of_selected hrstNext hselNext, hmerged]

end Sys2Proof.Machine

/-! # Proofs of 42_tick_generator.md: the timers (R78 to R86), `FRC` (R87), the seven operations (R88 to R94), R96 -/

namespace Sys2Proof.Machine

/-! ### One timer, in numbers (R78, R79) -/

theorem timerRuns_iff (t : Timer) : timerRuns t = true ↔ t.en = true ∧ t.period ≠ 0#32 := by
  simp [timerRuns]

theorem timerTick_iff (t : Timer) :
    timerTick t = true ↔ t.en = true ∧ t.period ≠ 0#32 ∧ t.period.toNat - 1 ≤ t.cnt.toNat := by
  rw [timerTick, Bool.and_eq_true, timerRuns_iff, and_assoc]
  refine and_congr_right fun _ => and_congr_right fun hperiod => ?_
  have hpred : (t.period - 1#32).toNat = t.period.toNat - 1 := by bv_omega
  rw [BitVec.ule, decide_eq_true_iff, hpred]

/-- A timer that runs and does not tick is below the last value of its period, so the increment does not wrap. -/
theorem toNat_succ_of_no_tick {t : Timer} (hrun : timerRuns t = true) (htick : timerTick t = false) :
    (t.cnt + 1#32).toNat = t.cnt.toNat + 1 := by
  obtain ⟨hen, hperiod⟩ := (timerRuns_iff t).1 hrun
  have hlt : ¬t.period.toNat - 1 ≤ t.cnt.toNat := fun hle =>
    Bool.eq_false_iff.1 htick ((timerTick_iff t).2 ⟨hen, hperiod, hle⟩)
  bv_omega

/-- R79 as an unbounded number. -/
theorem toNat_timerNext (wr : Bool) (t : Timer) :
    (timerNext wr t).toNat =
      if wr = true then 0
      else if ¬(t.en = true ∧ t.period ≠ 0#32) then 0
      else if timerTick t = true then 0
      else t.cnt.toNat + 1 := by
  simp only [← timerRuns_iff]
  cases wr with
  | true => rfl
  | false =>
    cases hrun : timerRuns t with
    | false => simp [timerNext, hrun]
    | true =>
      cases htick : timerTick t with
      | true => simp [timerNext, hrun, htick]
      | false => simpa [timerNext, hrun, htick] using toNat_succ_of_no_tick hrun htick

theorem timerNext_of_tick (wr : Bool) {t : Timer} (h : timerTick t = true) : timerNext wr t = 0#32 := by
  simp [timerNext, h]

theorem timerNext_of_disabled (wr : Bool) {t : Timer} (h : t.en = false) : timerNext wr t = 0#32 := by
  simp [timerNext, timerRuns, h]

theorem timerTick_of_disabled {t : Timer} (h : t.en = false) : timerTick t = false := by
  simp [timerTick, timerRuns, h]

/-! ### The fast and the slow timer (R80, R81)

What a cycle does to a timer is a function of the timer and of the port's writes of `CTRL` and of its period.
`IsTimer` says this of either of the two, so that each fact about runs is proved once for both. -/

/-- A timer after a cycle without reset in which the port writes `ctrl` and `period`; its enable is bit `bit` of
`CTRL`. -/
def timerAfter (bit : Nat) (ctrl : Option Enables) (period : Option Word) (t : Timer) : Timer where
  en := (ctrl.map fun e => e.getLsbD bit).getD t.en
  period := period.getD t.period
  cnt := timerNext period.isSome t

/-- `timer` is the timer that bit `bit` of `CTRL` enables, whose period the field `write` of the port's contribution
replaces, in the cycles where `writes` holds, and whose tick is the output `tick`. -/
structure IsTimer (timer : Regs → Timer) (bit : Nat) (write : PortAct → Option Word) (writes : State → Bool)
    (tick : Outputs → Bool) : Prop where
  timer_nextRegs : ∀ p s, timer (nextRegs p s) = timerAfter bit p.ctrl (write p) (timer s.regs)
  tick_cycleOutputs : ∀ p s, tick (cycleOutputs p s) = timerTick (timer s.regs)
  isSome_write : ∀ s r, (write (portAct (presented s) r)).isSome = writes s
  write_indep : ∀ i r r', write (portAct i r) = write (portAct i r')

/-- What the port writes depends on the operation alone; only the response is read from the registers (R36). -/
theorem portAct_eq_set_rdata (i : Instr) (r r' : Regs) :
    portAct i r = { portAct i r' with rdata := (portAct i r).rdata } := by
  cases i <;> rfl

theorem ctrl_portAct_indep (i : Instr) (r r' : Regs) : (portAct i r).ctrl = (portAct i r').ctrl := by
  rw [portAct_eq_set_rdata i r r']

theorem isTimer_fast : IsTimer fastTimer 0 PortAct.fastPeriod writesFastPeriod Outputs.fastTick where
  timer_nextRegs p s := by rcases p with ⟨_, _, _ | _, _, _⟩ <;> rfl
  tick_cycleOutputs _ _ := rfl
  isSome_write := isSome_fastPeriod_portAct
  write_indep i r r' := by rw [portAct_eq_set_rdata i r r']

theorem isTimer_slow : IsTimer slowTimer 1 PortAct.slowPeriod writesSlowPeriod Outputs.slowTick where
  timer_nextRegs p s := by rcases p with ⟨_, _, _ | _, _, _⟩ <;> rfl
  tick_cycleOutputs _ _ := rfl
  isSome_write := isSome_slowPeriod_portAct
  write_indep i r r' := by rw [portAct_eq_set_rdata i r r']

section OneTimer
variable {timer : Regs → Timer} {bit : Nat} {write : PortAct → Option Word} {writes : State → Bool}
  {tick : Outputs → Bool} (h : IsTimer timer bit write writes tick)
include h

/-! #### One cycle -/

theorem IsTimer.timer_after {s : State} (hrst : s.pins.rst = false) :
    timer (after s).regs =
      timerAfter bit (portAct (presented s) s.regs).ctrl (write (portAct (presented s) s.regs)) (timer s.regs) := by
  rw [after_of_not_rst hrst, endCycle_regs, h.timer_nextRegs]

theorem IsTimer.cnt_after {s : State} (hrst : s.pins.rst = false) :
    (timer (after s).regs).cnt = timerNext (writes s) (timer s.regs) := by
  rw [h.timer_after hrst, ← h.isSome_write s s.regs]
  rfl

theorem IsTimer.period_after_of_write {s : State} {v : Word} (hrst : s.pins.rst = false)
    (hwrite : write (portAct (presented s) s.regs) = some v) : (timer (after s).regs).period = v := by
  rw [h.timer_after hrst, hwrite]
  rfl

theorem IsTimer.period_after_of_no_write {s : State} (hrst : s.pins.rst = false) (hkept : writes s = false) :
    (timer (after s).regs).period = (timer s.regs).period := by
  have hnone : write (portAct (presented s) s.regs) = none := by
    rwa [← h.isSome_write s s.regs, Option.isSome_eq_false_iff, Option.isNone_iff_eq_none] at hkept
  rw [h.timer_after hrst, hnone]
  rfl

theorem IsTimer.tick_after {s : State} (hrst : s.pins.rst = false) : tick (after s).out = timerTick (timer s.regs) := by
  rw [after_of_not_rst hrst, endCycle_out, h.tick_cycleOutputs]

/-- R78 and R79 for one timer. -/
theorem IsTimer.tick_and_count {s : State} (hrst : s.pins.rst = false) :
    (tick (after s).out = true ↔ (timer s.regs).en = true ∧ (timer s.regs).period ≠ 0#32 ∧
      (timer s.regs).period.toNat - 1 ≤ (timer s.regs).cnt.toNat) ∧
    (timer (after s).regs).cnt.toNat =
      if writes s = true then 0
      else if ¬((timer s.regs).en = true ∧ (timer s.regs).period ≠ 0#32) then 0
      else if tick (after s).out = true then 0
      else (timer s.regs).cnt.toNat + 1 := by
  rw [h.tick_after hrst, h.cnt_after hrst]
  exact ⟨timerTick_iff _, toNat_timerNext _ _⟩

/-- A step takes nothing else from the registers to a timer than the timer itself (R81). -/
theorem IsTimer.timer_after_set_regs {s : State} {r : Regs} (hr : timer r = timer s.regs) :
    timer (after { s with regs := r }).regs = timer (after s).regs ∧
      tick (after { s with regs := r }).out = tick (after s).out := by
  cases hrst : s.pins.rst with
  | true =>
    rw [after_of_rst hrst, after_of_rst (by exact hrst)]
    exact ⟨rfl, rfl⟩
  | false =>
    rw [h.timer_after hrst, h.timer_after (by exact hrst), h.tick_after hrst, h.tick_after (by exact hrst)]
    refine ⟨?_, congrArg timerTick hr⟩
    rw [h.write_indep _ r s.regs, ctrl_portAct_indep _ r s.regs, hr]
    rfl

/-! #### From a restarted counter to the next tick (R86) -/

section Restart
variable {s : State} {T : Nat} (hcnt : (timer (after s).regs).cnt = 0#32)
  (hperiod : (timer (after s).regs).period.toNat = T) (hrst : ∀ k ≤ T, (stateAt s k).pins.rst = false)
  (hen : ∀ k ≤ T, 1 ≤ k → (timer (stateAt s k).regs).en = true)
  (hkept : ∀ k < T, 1 ≤ k → writes (stateAt s k) = false)
include hcnt hperiod hrst hen hkept

/-- A counter that cycle 0 cleared counts the cycles since, up to the last one of the period. -/
theorem IsTimer.count_since_restart {k : Nat} (hk : k < T) :
    (timer (stateAt s (k + 1)).regs).period.toNat = T ∧ (timer (stateAt s (k + 1)).regs).cnt.toNat = k := by
  induction k with
  | zero => exact ⟨hperiod, congrArg BitVec.toNat hcnt⟩
  | succ k ih =>
    obtain ⟨hper, hcount⟩ := ih (by omega)
    have hrun : (timer (stateAt s (k + 1)).regs).en = true ∧ (timer (stateAt s (k + 1)).regs).period ≠ 0#32 :=
      ⟨hen (k + 1) (by omega) (by omega), by bv_omega⟩
    have htick : ¬timerTick (timer (stateAt s (k + 1)).regs) = true := by
      rw [timerTick_iff]
      rintro ⟨-, -, hle⟩
      omega
    have hrst' := hrst (k + 1) (by omega)
    have hkept' := hkept (k + 1) hk (by omega)
    rw [stateAt_succ s (k + 1), h.period_after_of_no_write hrst' hkept', h.cnt_after hrst', toNat_timerNext, hkept',
      if_neg Bool.false_ne_true, if_neg (not_not.2 hrun), if_neg htick, hcount]
    exact ⟨hper, rfl⟩

/-- In the `k`-th cycle after a restart the timer ticks iff the cycle is the last of the period. -/
theorem IsTimer.tick_iff_last_of_period {k : Nat} (hk : k < T) : tick (outAt s (k + 1)) = true ↔ k + 1 = T := by
  obtain ⟨hper, hcount⟩ := h.count_since_restart hcnt hperiod hrst hen hkept hk
  have hne : (timer (stateAt s (k + 1)).regs).period ≠ 0#32 := by bv_omega
  rw [outAt, stateAt_succ, h.tick_after (hrst _ hk), timerTick_iff, hper, hcount]
  constructor
  · rintro ⟨-, -, hle⟩
    omega
  · intro hlast
    exact ⟨hen _ hk (by omega), hne, by omega⟩

/-- The next tick is in cycle `T`. -/
theorem IsTimer.next_tick_of_restart (hT : T ≠ 0) :
    (∀ k < T, 1 ≤ k → tick (outAt s k) = false) ∧ tick (outAt s T) = true := by
  have htick {k : Nat} (hk : k < T) := h.tick_iff_last_of_period hcnt hperiod hrst hen hkept hk
  obtain ⟨n, rfl⟩ := Nat.exists_eq_succ_of_ne_zero hT
  refine ⟨fun k hk h1 => ?_, (htick (Nat.lt_succ_self n)).2 rfl⟩
  obtain ⟨m, rfl⟩ := Nat.exists_eq_succ_of_ne_zero (Nat.one_le_iff_ne_zero.1 h1)
  exact Bool.eq_false_iff.2 fun htrue => hk.ne ((htick (by omega)).1 htrue)

end Restart

section Run
variable {s : State} {T : Nat} (hT : T ≠ 0) (hrst : ∀ k ≤ T, (stateAt s k).pins.rst = false)
  (hen : ∀ k ≤ T, 1 ≤ k → (timer (stateAt s k).regs).en = true)
  (hkept : ∀ k < T, 1 ≤ k → writes (stateAt s k) = false)
include hT hrst hen hkept

/-- R86 (b): a period write restarts the counter (R85). -/
theorem IsTimer.next_tick_of_period_write {v : Word} (hv : v.toNat = T)
    (hwrite : write (portAct (presented s) s.regs) = some v) :
    (∀ k < T, 1 ≤ k → tick (outAt s k) = false) ∧ tick (outAt s T) = true := by
  have hrst0 : s.pins.rst = false := hrst 0 (Nat.zero_le T)
  have hwrites : writes s = true := by rw [← h.isSome_write s s.regs, hwrite, Option.isSome_some]
  have hcnt : (timer (after s).regs).cnt = 0#32 := by
    rw [h.cnt_after hrst0, hwrites]
    rfl
  have hperiod : (timer (after s).regs).period.toNat = T := by rw [h.period_after_of_write hrst0 hwrite, hv]
  exact h.next_tick_of_restart hcnt hperiod hrst hen hkept hT

/-- R86 (c): the counter of a disabled timer is held at 0 (R84), and a disabled timer does not tick. -/
theorem IsTimer.first_tick_of_enable (hperiod : (timer s.regs).period.toNat = T) (hoff : (timer s.regs).en = false)
    (hkept0 : writes s = false) : (∀ k < T, tick (outAt s k) = false) ∧ tick (outAt s T) = true := by
  have hrst0 : s.pins.rst = false := hrst 0 (Nat.zero_le T)
  have hcnt : (timer (after s).regs).cnt = 0#32 := by rw [h.cnt_after hrst0, timerNext_of_disabled _ hoff]
  rw [← h.period_after_of_no_write hrst0 hkept0] at hperiod
  obtain ⟨hbefore, hlast⟩ := h.next_tick_of_restart hcnt hperiod hrst hen hkept hT
  refine ⟨fun k hk => ?_, hlast⟩
  cases k with
  | zero => exact (h.tick_after hrst0).trans (timerTick_of_disabled hoff)
  | succ k => exact hbefore (k + 1) hk (by omega)

/-- R86 (a): a tick restarts the counter (R79). -/
theorem IsTimer.next_tick_of_tick (hperiod : (timer s.regs).period.toNat = T) (htick : tick (outAt s 0) = true)
    (hkept0 : writes s = false) : (∀ k < T, 1 ≤ k → tick (outAt s k) = false) ∧ tick (outAt s T) = true := by
  have hrst0 : s.pins.rst = false := hrst 0 (Nat.zero_le T)
  have hcnt : (timer (after s).regs).cnt = 0#32 := by
    rw [h.cnt_after hrst0, timerNext_of_tick _ ((h.tick_after hrst0).symm.trans htick)]
  rw [← h.period_after_of_no_write hrst0 hkept0] at hperiod
  exact h.next_tick_of_restart hcnt hperiod hrst hen hkept hT

end Run

end OneTimer

/-! ### Both timers -/

theorem writesFastPeriod_iff (s : State) : writesFastPeriod s = true ↔ s.pins.op = 0x5#4 := by
  rw [← isSome_fastPeriod_portAct s s.regs]
  refine ⟨fun h => op_of_fastPeriod_write (Option.isSome_iff_ne_none.1 h), fun h => ?_⟩
  rw [presented_of_op_wrfp h]
  rfl

theorem writesSlowPeriod_iff (s : State) : writesSlowPeriod s = true ↔ s.pins.op = 0x7#4 := by
  rw [← isSome_slowPeriod_portAct s s.regs]
  refine ⟨fun h => op_of_slowPeriod_write (Option.isSome_iff_ne_none.1 h), fun h => ?_⟩
  rw [presented_of_op_wrsp h]
  rfl

/-- Settles O37: one cycle of each timer in numbers, the period write read off `op_i`. -/
theorem timersTickAndCount : Obligations.TimersTickAndCount := by
  intro s hrst
  obtain ⟨hfast, hfastCnt⟩ := isTimer_fast.tick_and_count hrst
  obtain ⟨hslow, hslowCnt⟩ := isTimer_slow.tick_and_count hrst
  simp only [writesFastPeriod_iff] at hfastCnt
  simp only [writesSlowPeriod_iff] at hslowCnt
  exact ⟨after s, step_eq_next_after s, hfast, hfastCnt, hslow, hslowCnt⟩

/-- Settles O40: `WRFP` and `WRSP` restart the counter of their timer with the new period. -/
theorem tickAfterPeriodWrite : Obligations.TickAfterPeriodWrite := by
  intro s v hv hrst
  have hT : v.toNat ≠ 0 := by bv_omega
  refine ⟨fun hwr hen hkept => ?_, fun hwr hen hkept => ?_⟩
  · exact isTimer_fast.next_tick_of_period_write hT hrst (fun k hk _ => hen k hk) hkept rfl (by rw [hwr]; rfl)
  · exact isTimer_slow.next_tick_of_period_write hT hrst (fun k hk _ => hen k hk) hkept rfl (by rw [hwr]; rfl)

/-- Settles O41: the enabling `WRCTRL` writes no period, and finds the counter of a disabled timer. -/
theorem tickAfterEnable : Obligations.TickAfterEnable := by
  intro s e T hT hwr hrst
  have hfast : writesFastPeriod s = false := by rw [writesFastPeriod, hwr]
  have hslow : writesSlowPeriod s = false := by rw [writesSlowPeriod, hwr]
  exact ⟨fun hperiod hoff hen hkept => isTimer_fast.first_tick_of_enable hT hrst hen hkept hperiod hoff hfast,
    fun hperiod hoff hen hkept => isTimer_slow.first_tick_of_enable hT hrst hen hkept hperiod hoff hslow⟩

/-- Settles O42: each tick restarts the counter of its timer. -/
theorem ticksOnePeriodApart : Obligations.TicksOnePeriodApart := by
  intro s T hT hrst
  have hpos : 0 < T := Nat.pos_of_ne_zero hT
  refine ⟨fun hperiod htick hen hkept => ?_, fun hperiod htick hen hkept => ?_⟩
  · exact isTimer_fast.next_tick_of_tick hT hrst (fun k hk _ => hen k hk) (fun k hk _ => hkept k hk) hperiod htick
      (hkept 0 hpos)
  · exact isTimer_slow.next_tick_of_tick hT hrst (fun k hk _ => hen k hk) (fun k hk _ => hkept k hk) hperiod htick
      (hkept 0 hpos)

/-! ### The free-running counter (R87) -/

theorem frc_after_of_rst {s : State} (hrst : s.pins.rst = true) : (after s).regs.frc = 0#32 := by
  rw [after_of_rst hrst]
  rfl

theorem frc_after_of_not_rst {s : State} (hrst : s.pins.rst = false) :
    (after s).regs.frc = s.regs.frc + 1#32 := by
  rw [after_of_not_rst hrst, endCycle_regs, nextRegs_frc]

theorem frc_stateAt {s : State} {n : Nat} (hrst : ∀ k < n, (stateAt s k).pins.rst = false) :
    (stateAt s n).regs.frc = s.regs.frc + BitVec.ofNat 32 n := by
  induction n with
  | zero => exact (BitVec.add_zero _).symm
  | succ n ih =>
    rw [stateAt_succ, frc_after_of_not_rst (hrst n (by omega)), ih fun k hk => hrst k (by omega), BitVec.add_assoc,
      ← BitVec.ofNat_add]

/-- Settles O43: one increment modulo 2^32 a cycle, and from reset as many as there were cycles. -/
theorem frcCountsCycles : Obligations.FrcCountsCycles := by
  refine ⟨fun s t hrst hstep => ?_, fun s t hrst hstep => ?_, fun now later n hrst => ?_⟩
  · obtain rfl : after s = t := by simpa [step_eq_next_after] using hstep
    exact frc_after_of_rst hrst
  · obtain rfl : after s = t := by simpa [step_eq_next_after] using hstep
    rw [frc_after_of_not_rst hrst, BitVec.toNat_add]
    rfl
  · have hzero : (State.reset.present now later).regs.frc = 0#32 := rfl
    rw [frc_stateAt hrst, hzero, BitVec.zero_add, BitVec.toNat_ofNat]

/-! ### What the timers do not influence (R81, R96) -/

theorem debOf_after_of_not_rst {s : State} (hrst : s.pins.rst = false) : debOf (after s).regs = debNext s := by
  rw [after_of_not_rst hrst, endCycle_regs, debOf_nextRegs]

/-- The Debouncer and `PENDING` take nothing else from the registers than the fast timer and their own. -/
theorem deb_and_pending_after_set_regs {s : State} {r : Regs} (htimer : fastTimer r = fastTimer s.regs)
    (hdeb : debOf r = debOf s.regs) (hpending : r.pending = s.regs.pending) :
    debOf (after { s with regs := r }).regs = debOf (after s).regs ∧
      (after { s with regs := r }).regs.pending = (after s).regs.pending := by
  have htick : fastTick r = fastTick s.regs := congrArg timerTick htimer
  cases hrst : s.pins.rst with
  | true =>
    rw [after_of_rst hrst, after_of_rst (by exact hrst)]
    exact ⟨rfl, rfl⟩
  | false =>
    have hdebNext : debNext { s with regs := r } = debNext s := by
      simp only [debNext, htick, hdeb]
      rfl
    have hpress : pressNow { s with regs := r } = pressNow s := by
      simp only [pressNow, htick, hdeb]
      rfl
    rw [debOf_after_of_not_rst hrst, debOf_after_of_not_rst (by exact hrst), pending_after_of_not_rst hrst,
      pending_after_of_not_rst (by exact hrst), hdebNext, hpress, hpending]
    exact ⟨rfl, rfl⟩

theorem frc_after_set_regs {s : State} {r : Regs} (hfrc : r.frc = s.regs.frc) :
    (after { s with regs := r }).regs.frc = (after s).regs.frc := by
  cases hrst : s.pins.rst with
  | true => rw [frc_after_of_rst hrst, frc_after_of_rst (by exact hrst)]
  | false => rw [frc_after_of_not_rst hrst, frc_after_of_not_rst (by exact hrst), hfrc]

/-- Settles O39: the changed registers leave the timer compared as it was, and with the fast timer its `DEB_TICK`. -/
theorem timersAreIndependent : Obligations.TimersAreIndependent := by
  intro s e p c
  refine ⟨fun hbit => ?_, fun hbit => ?_⟩
  · have htimer : fastTimer { s.regs with ctrl := e, slowPeriod := p, slowCnt := c } = fastTimer s.regs := by
      simp only [fastTimer, hbit]
    obtain ⟨hnext, htick⟩ := isTimer_fast.timer_after_set_regs htimer
    obtain ⟨hdeb, hpending⟩ := deb_and_pending_after_set_regs htimer rfl rfl
    exact ⟨hnext, htick, hdeb, hpending, frc_after_set_regs rfl⟩
  · have htimer : slowTimer { s.regs with ctrl := e, fastPeriod := p, fastCnt := c } = slowTimer s.regs := by
      simp only [slowTimer, hbit]
    obtain ⟨hnext, htick⟩ := isTimer_slow.timer_after_set_regs htimer
    exact ⟨hnext, htick, frc_after_set_regs rfl⟩

/-- No operation answers or stores a timer's counter (R20). -/
theorem portAct_set_slowCnt (i : Instr) (r : Regs) (cnt : Word) :
    portAct i { r with slowCnt := cnt } = portAct i r := by
  cases i <;> rfl

/-- Settles O38: `SLOW_CNT` enters a cycle only through the slow timer's next counter and its tick. -/
theorem slowTickHasNoInternalEffect : Obligations.SlowTickHasNoInternalEffect := by
  intro s cnt t u
  cases hrst : s.pins.rst with
  | true =>
    simp only [t, u]
    rw [after_of_rst hrst, after_of_rst (by exact hrst)]
    rfl
  | false =>
    have hact : portAct (presented { s with regs := { s.regs with slowCnt := cnt } }) { s.regs with slowCnt := cnt } =
        portAct (presented s) s.regs := portAct_set_slowCnt _ _ _
    simp only [t, u]
    rw [after_of_not_rst hrst, after_of_not_rst (by exact hrst), hact]
    rfl

/-! ### The seven operations (R88 to R94)

An operation's cycle is `NOP`'s cycle but for its own contribution from the port (R99), so each frame is the comparison
of two cycles field by field. -/

theorem getLsbD_zext32 {n : Nat} (hn : n ≤ 32) (v : BitVec n) (i : Nat) : (zext32 v).getLsbD i = v.getLsbD i := by
  by_cases hi : i < n
  · simp [zext32, show i < 32 by omega]
  · simp [zext32, show n ≤ i by omega]

/-- Settles O48: a read contributes its response and nothing else. -/
theorem readResultsAndFrame : Obligations.ReadResultsAndFrame := by
  refine ⟨fun _ => ⟨rfl, rfl, rfl, rfl⟩, fun s => ⟨_, rfl, ⟨_, rfl, rfl, ?_⟩, rfl, rfl, rfl⟩⟩
  have hbit (i : Nat) : (zext32 s.regs.ctrl).getLsbD i = s.regs.ctrl.getLsbD i := getLsbD_zext32 (by decide) _ i
  exact ⟨hbit 0, hbit 1, fun i hi => (hbit i).trans (BitVec.getLsbD_of_ge _ i hi)⟩

/-- Settles O49: `WRCTRL` contributes the write of `CTRL`. -/
theorem wrctrlResultAndFrame : Obligations.WrctrlResultAndFrame :=
  ⟨fun _ => congrArg Instr.wrctrl (BitVec.setWidth_eq_extractLsb' (by decide)).symm, fun _ _ => ⟨_, rfl, rfl, rfl⟩⟩

/-- Settles O50: `WRFP` contributes the write of `FAST_PERIOD`, which clears `FAST_CNT` too (R85). -/
theorem wrfpResultAndFrame : Obligations.WrfpResultAndFrame :=
  ⟨fun _ => rfl, fun _ _ => ⟨_, rfl, rfl, rfl⟩⟩

/-- Settles O51: `WRSP` contributes the write of `SLOW_PERIOD`, which clears `SLOW_CNT` too (R85). -/
theorem wrspResultAndFrame : Obligations.WrspResultAndFrame :=
  ⟨fun _ => rfl, fun _ _ => ⟨_, rfl, rfl, rfl⟩⟩

end Sys2Proof.Machine

/-! # Proofs of 43_port_and_cycle.md: `NOP` and the reserved opcodes (R97, R98), the whole cycle (R100), what the inputs
influence (R101), the event-level reading (R102) -/

namespace Sys2Proof.Machine

/-! ### The whole-cycle function (R100) -/

/-- For each of the sixteen select values the merge of R36 is, line by line, the function of R100. -/
theorem wholeCycle_of_not_rst (s : State) (op : Op) (w : Word) :
    wholeCycle s.polarity s.regs false (sampledRaw s) op w =
      (nextRegs (portAct (decodePorts op w) s.regs) s, cycleOutputs (portAct (decodePorts op w) s.regs) s) := by
  obtain ⟨op⟩ := op
  fin_cases op <;> rfl

/-- Settles O11: in reset both are the reset cycle, and else both are the cycle of the operation on the port. -/
theorem stepIsWholeCycle : Obligations.StepIsWholeCycle := by
  refine fun s => ⟨⟨after s, step_eq_next_after s, ?_⟩, sampledRaw_eq_raw⟩
  cases hrst : s.pins.rst with
  | true => rw [after_of_rst hrst]; rfl
  | false => rw [after_of_not_rst hrst, wholeCycle_of_not_rst, ← presented_eq_decodePorts]; rfl

/-! ### What the inputs influence (R101) -/

/-- Without a fast tick `raw_i` is not sampled (R57). -/
theorem nextRegs_set_raw_of_no_tick {s : State} (htick : fastTick s.regs = false) (p : PortAct) (raw free : Mask) :
    nextRegs p { s with pins := { s.pins with raw := raw, rawFree := free } } = nextRegs p s := by
  unfold nextRegs
  rw [debNext_of_no_tick htick, debNext_of_no_tick (by exact htick), pressNow_of_no_tick htick,
    pressNow_of_no_tick (by exact htick)]

theorem out_after_set_raw (s : State) (raw free : Mask) :
    (after { s with pins := { s.pins with raw := raw, rawFree := free } }).out = (after s).out := by
  cases hrst : s.pins.rst with
  | true => rw [after_of_rst hrst, after_of_rst (by exact hrst)]; rfl
  | false => rw [after_of_not_rst hrst, after_of_not_rst (by exact hrst)]; rfl

theorem after_set_raw_of_no_tick {s : State} (htick : fastTick s.regs = false) (raw free : Mask) :
    after { s with pins := { s.pins with raw := raw, rawFree := free } } = after s := by
  cases hrst : s.pins.rst with
  | true => rw [after_of_rst hrst, after_of_rst (by exact hrst)]; rfl
  | false =>
    rw [after_of_not_rst hrst, after_of_not_rst (by exact hrst), nextRegs_set_raw_of_no_tick htick]
    rfl

/-- What no operation writes comes from the registers of before and the Debouncer's tick (R36). -/
theorem unwritten_after_congr {s u : State} (hs : s.pins.rst = false) (hu : u.pins.rst = false)
    (hregs : u.regs = s.regs) (hdeb : debNext u = debNext s) :
    debOf (after u).regs = debOf (after s).regs ∧ (after u).regs.frc = (after s).regs.frc ∧
      (after u).out.fastTick = (after s).out.fastTick ∧ (after u).out.slowTick = (after s).out.slowTick := by
  rw [debOf_after_of_not_rst hs, debOf_after_of_not_rst hu, frc_after_of_not_rst hs, frc_after_of_not_rst hu,
    isTimer_fast.tick_after hs, isTimer_fast.tick_after hu, isTimer_slow.tick_after hs, isTimer_slow.tick_after hu,
    hregs]
  exact ⟨hdeb, rfl, rfl, rfl⟩

/-- Settles O12: the outputs are taken from the registers of before, `raw_i` enters by a `DEB_TICK` only, the port
writes neither the Debouncer's registers nor `FRC`, and a reset cycle reads nothing. -/
theorem whatInputsInfluence : Obligations.WhatInputsInfluence := by
  refine ⟨fun s raw free => ⟨out_after_set_raw s raw free, fun htick => after_set_raw_of_no_tick htick raw free⟩,
    ?_, fun s raw free op w r hrst => ?_⟩
  · intro s op w t u
    cases hrst : s.pins.rst with
    | true =>
      simp only [t, u]
      rw [after_of_rst hrst, after_of_rst (by exact hrst)]
      and_intros <;> rfl
    | false =>
      obtain ⟨hdeb, hfrc, hfast, hslow⟩ :=
        unwritten_after_congr (u := { s with pins := { s.pins with op := op, wdata := w } }) hrst hrst rfl rfl
      exact ⟨congrArg Deb.lo hdeb, congrArg Deb.hi hdeb, congrArg Deb.state hdeb, hfrc, hfast, hslow⟩
  · rw [after_of_rst hrst, after_of_rst (by rfl)]
    rfl

/-! ### The event-level reading (R102) -/

theorem runEvents_append (f : Filter) (es fs : List Event) :
    runEvents f (es ++ fs) = runEvents (runEvents f es) fs := by
  induction es generalizing f with
  | nil => rfl
  | cons e es ih => exact ih _

theorem eventResponses_append (f : Filter) (es fs : List Event) :
    eventResponses f (es ++ fs) = eventResponses f es ++ eventResponses (runEvents f es) fs := by
  induction es generalizing f with
  | nil => rfl
  | cons e es ih => simp only [List.cons_append, eventResponses, runEvents, ih, List.append_assoc]

theorem eventsUpTo_succ (s : State) (n : Nat) :
    eventsUpTo s (n + 1) = eventsUpTo s n ++ cycleEvents (stateAt s n) := by
  simp only [eventsUpTo, List.range_succ, List.flatMap_append, List.flatMap_singleton]

/-- The responses of cycle `n` are those of the run of one cycle from its state. -/
theorem responsesUpTo_succ (s : State) (n : Nat) :
    responsesUpTo s (n + 1) = responsesUpTo s n ++ responsesUpTo (stateAt s n) 1 := by
  rw [responsesUpTo, List.range_succ, List.flatMap_append, List.flatMap_singleton, responsesUpTo, responsesUpTo,
    List.range_one, List.flatMap_singleton]
  rfl

/-- A cycle's call clears what its port clears. -/
theorem runEvents_callEvents (f : Filter) (s : State) :
    runEvents f (callEvents (presented s)) = ⟨f.deb, f.pending &&& ~~~selectedChannels s⟩ := by
  have hnone : f = ⟨f.deb, f.pending &&& ~~~0x00#8⟩ := congrArg (Filter.mk f.deb) BitVec.and_allOnes.symm
  unfold selectedChannels
  cases presented s
  case chkclr => rfl
  all_goals exact hnone

/-- A cycle's tick moves the Debouncer and stores the presses. -/
theorem runEvents_tickEvents (s : State) (pending : Mask) :
    runEvents ⟨debOf s.regs, pending⟩ (tickEvents s) = ⟨debNext s, pending ||| pressNow s⟩ := by
  unfold tickEvents
  cases htick : fastTick s.regs with
  | true => rw [debNext_of_tick htick, pressNow_of_tick htick]; rfl
  | false => rw [debNext_of_no_tick htick, pressNow_of_no_tick htick, BitVec.or_zero]; rfl

theorem eventResponses_tickEvents (f : Filter) (s : State) : eventResponses f (tickEvents s) = [] := by
  unfold tickEvents
  split <;> rfl

/-- One cycle is its call, then its tick: the merge of R72, in which set wins over clear. -/
theorem filterOf_after {s : State} (hrst : s.pins.rst = false) :
    filterOf (after s).regs = runEvents (filterOf s.regs) (cycleEvents s) := by
  rw [cycleEvents, runEvents_append, runEvents_callEvents, filterOf, debOf_after_of_not_rst hrst,
    pending_after_of_not_rst hrst]
  exact (runEvents_tickEvents s _).symm

/-- The response of one cycle is that of its call, before the tick. -/
theorem responsesUpTo_one {s : State} (hrst : s.pins.rst = false) :
    responsesUpTo s 1 = (eventResponses (filterOf s.regs) (cycleEvents s)).map fun r => zext32 r := by
  have hrdata : (outAt s 0).rdata = (portAct (presented s) s.regs).rdata := rdata_outAt (k := 0) hrst
  rw [cycleEvents, eventResponses_append, eventResponses_tickEvents, List.append_nil, responsesUpTo, List.range_one,
    List.flatMap_singleton, hrdata, stateAt]
  cases presented s <;> rfl

/-- Settles O36, by induction on the number of cycles: a run's last cycle adds its own events and its own response. -/
theorem eventLevelReading : Obligations.EventLevelReading := by
  intro s n hrst
  induction n with
  | zero => exact ⟨rfl, rfl⟩
  | succ n ih =>
    obtain ⟨hfilter, hresponses⟩ := ih fun k hk => hrst k (by omega)
    have hlast : (stateAt s n).pins.rst = false := hrst n (by omega)
    rw [eventsUpTo_succ, runEvents_append, eventResponses_append, responsesUpTo_succ, List.map_append, ← hfilter,
      ← hresponses]
    exact ⟨filterOf_after hlast, congrArg _ (responsesUpTo_one hlast)⟩

/-! ### `NOP` and the reserved opcodes (R97, R98) -/

/-- Settles O46: the port contributes nothing, whichever of the operations it is. -/
theorem reservedOperationsActAsNop : Obligations.ReservedOperationsActAsNop :=
  fun _ _ => ⟨_, rfl, rfl, rfl, rfl, rfl⟩

theorem exec_decodePorts_of_reserved {op : Op} (hop : 9 ≤ op.toNat) (w : Word) (s : State) :
    exec (decodePorts op w) s = exec .nop s := by
  unfold decodePorts
  split
  case h_10 | h_11 | h_12 | h_13 => rfl
  all_goals omega

/-- Settles O47: a reset cycle does not look at the port, and else the reserved opcode's cycle is `NOP`'s. -/
theorem reservedOpcodesActAsNop : Obligations.ReservedOpcodesActAsNop := by
  intro s w hop
  have hnop : s.pins.rst = false → step s = exec .nop s := fun hrst => by
    rw [step_of_not_rst hrst, presented_eq_decodePorts, exec_decodePorts_of_reserved hop]
  refine ⟨?_, fun hrst => ⟨_, hnop hrst, rfl⟩⟩
  cases hrst : s.pins.rst with
  | true => exact (step_set_port (by simp [hrst])).symm
  | false =>
    rw [hnop hrst, step_of_not_rst (by exact hrst), presented_eq_decodePorts, exec_set_port]
    rfl

theorem pendingNext_no_clear (pending press : Mask) : pendingNext pending 0x00#8 press = pending ||| press :=
  congrArg (· ||| press) BitVec.and_allOnes

/-- Settles O45: `NOP` contributes nothing to the merge of R36, which leaves a due `DEB_TICK` and the counting. -/
theorem nopResultAndFrame : Obligations.NopResultAndFrame := by
  refine ⟨fun _ => rfl, fun s => ⟨_, rfl, rfl, rfl, rfl, rfl, rfl, rfl, rfl, fun htick => ?_, fun htick => ?_⟩⟩
  · rw [endCycle_regs, debOf_nextRegs, nextRegs_pending, pendingNext_no_clear, debNext_of_no_tick htick,
      pressNow_of_no_tick htick, BitVec.or_zero]
    exact ⟨rfl, rfl⟩
  · rw [endCycle_regs, debOf_nextRegs, nextRegs_pending, pendingNext_no_clear, debNext_of_tick htick,
      pressNow_of_tick htick]
    exact ⟨rfl, rfl⟩

/-! ### Completion (R100, R105), and the model's own fields -/

/-- Settles O10: every operation is one cycle, and a cycle answers a next state. -/
theorem everyStepCompletes : Obligations.EveryStepCompletes :=
  ⟨fun s => ⟨after s, step_eq_next_after s⟩, fun i s => ⟨_, exec_eq_runCycle i s⟩⟩

/-- Every step and every operation ends at the clock edge (R8). -/
theorem eq_endCycle_of_step_or_exec {s t : State} (h : step s = .next t ∨ ∃ i, exec i s = .next t) :
    ∃ r o, t = endCycle r o s := by
  obtain hstep | ⟨i, hexec⟩ := h
  · obtain ⟨-, ht⟩ | ⟨-, ht⟩ := step_cases hstep
    · exact ⟨_, _, ht⟩
    · exact ⟨_, _, ht⟩
  · rw [exec_eq_runCycle] at hexec
    exact ⟨_, _, (Host.Outcome.next.inj hexec).symm⟩

/-- Settles O8: the edge that ends a cycle brings the next inputs, whatever the cycle did. -/
theorem nextInputsArrive : Obligations.NextInputsArrive := by
  intro s t h
  obtain ⟨r, o, rfl⟩ := eq_endCycle_of_step_or_exec h
  exact ⟨rfl, rfl, rfl, rfl⟩

end Sys2Proof.Machine

/-! # Proofs of 70_reset_and_hazards.md: held reset (R119), boot (R123), debounce latency (R136) -/

namespace Sys2Proof.Machine

/-! ### Held reset (R119, R120) -/

/-- Settles O15: the registers are those that the last reset cycle leaves, and each cycle's outputs are its own. -/
theorem resetHeldAnyNumberOfCycles : Obligations.ResetHeldAnyNumberOfCycles := by
  intro s n hrst
  refine ⟨?_, fun k hk => ?_⟩
  · rw [stateAt_succ, after_of_rst (hrst n le_rfl)]
    rfl
  · rw [outAt, stateAt_succ, after_of_rst (hrst k hk), endCycle_out]

/-! ### The inert block (R123) -/

/-- The registers of a block that has been reset and not been enabled since (R123). -/
def inertRegs (f p frc : Word) : Regs := { Regs.reset with fastPeriod := f, slowPeriod := p, frc := frc }

theorem inertRegs_ctrl (f p frc : Word) : (inertRegs f p frc).ctrl = 0b00#2 := rfl

theorem fastTimer_inertRegs_disabled (f p frc : Word) : (fastTimer (inertRegs f p frc)).en = false := by
  simp only [fastTimer, inertRegs_ctrl, BitVec.getLsbD_zero]

theorem slowTimer_inertRegs_disabled (f p frc : Word) : (slowTimer (inertRegs f p frc)).en = false := by
  simp only [slowTimer, inertRegs_ctrl, BitVec.getLsbD_zero]

theorem pendingNext_zero (clr : Mask) : pendingNext 0x00#8 clr 0x00#8 = 0x00#8 := by
  rw [pendingNext, BitVec.zero_and, BitVec.or_zero]

/-- In an inert block a cycle counts `FRC`, and the port can write `CTRL` and the periods; nothing else changes. -/
theorem nextRegs_of_inert {s : State} {f p frc : Word} (h : s.regs = inertRegs f p frc) (act : PortAct) :
    nextRegs act s = { inertRegs (act.fastPeriod.getD f) (act.slowPeriod.getD p) (frc + 1#32) with
      ctrl := act.ctrl.getD 0b00#2 } := by
  have hfast : (fastTimer s.regs).en = false := by rw [h, fastTimer_inertRegs_disabled]
  have hslow : (slowTimer s.regs).en = false := by rw [h, slowTimer_inertRegs_disabled]
  have htick : fastTick s.regs = false := timerTick_of_disabled hfast
  have hpending : s.regs.pending = 0x00#8 := by rw [h]; rfl
  rw [nextRegs, debNext_of_no_tick htick, pressNow_of_no_tick htick, timerNext_of_disabled _ hfast,
    timerNext_of_disabled _ hslow, hpending, pendingNext_zero, h]
  rfl

theorem exists_inert_after {s : State} {f p frc : Word} (h : s.regs = inertRegs f p frc)
    (hrst : s.pins.rst = false) (hctrl : writesCtrl s = false) :
    ∃ f' p', (after s).regs = inertRegs f' p' (frc + 1#32) := by
  have hnone : (portAct (presented s) s.regs).ctrl = none := by
    rwa [← isSome_ctrl_portAct s s.regs, Option.isSome_eq_false_iff, Option.isNone_iff_eq_none] at hctrl
  rw [after_of_not_rst hrst, endCycle_regs, nextRegs_of_inert h, hnone]
  exact ⟨_, _, rfl⟩

theorem exists_inert_stateAt {s : State} {f p frc : Word} {n : Nat} (h : s.regs = inertRegs f p frc)
    (hrun : ∀ k < n, (stateAt s k).pins.rst = false ∧ writesCtrl (stateAt s k) = false) :
    ∃ f' p', (stateAt s n).regs = inertRegs f' p' (frc + BitVec.ofNat 32 n) := by
  induction n with
  | zero => exact ⟨f, p, by rw [stateAt, h, BitVec.add_zero]⟩
  | succ n ih =>
    obtain ⟨f', p', hregs⟩ := ih fun k hk => hrun k (by omega)
    obtain ⟨hrst, hctrl⟩ := hrun n (by omega)
    rw [stateAt_succ, BitVec.ofNat_add, ← BitVec.add_assoc]
    exact exists_inert_after hregs hrst hctrl

/-- Settles O16: every cycle before a `WRCTRL` finds the block inert and leaves it so. -/
theorem inertUntilEnabled : Obligations.InertUntilEnabled := by
  intro now later n s hrun
  have hstart : s.regs = inertRegs 0#32 0#32 0#32 := rfl
  refine ⟨?_, fun k hk => ?_⟩
  · obtain ⟨f, p, hregs⟩ := exists_inert_stateAt hstart hrun
    rw [hregs, BitVec.zero_add]
    rfl
  · obtain ⟨f, p, hregs⟩ := exists_inert_stateAt hstart fun j hj => hrun j (hj.trans hk)
    obtain ⟨hrst, -⟩ := hrun k hk
    rw [outAt, stateAt_succ, isTimer_fast.tick_after hrst, isTimer_slow.tick_after hrst, hregs]
    exact ⟨timerTick_of_disabled (fastTimer_inertRegs_disabled _ _ _),
      timerTick_of_disabled (slowTimer_inertRegs_disabled _ _ _)⟩

/-! ### The boot sequence (R52, R123) -/

/-- The inputs that were given for later cycles arrive in order. -/
theorem pins_stateAt_succ (s : State) (k : Nat) : (stateAt s (k + 1)).pins = s.coming.getD k Inputs.idle := by
  induction k generalizing s with
  | zero =>
    obtain ⟨hpins, -⟩ := nextInputsArrive s (after s) (.inl (step_eq_next_after s))
    rw [stateAt_succ, stateAt, hpins]
    cases s.coming <;> rfl
  | succ k ih =>
    obtain ⟨-, hcoming, -⟩ := nextInputsArrive s (after s) (.inl (step_eq_next_after s))
    rw [stateAt_after, ih, hcoming]
    cases s.coming <;> rfl

theorem presented_of_inputsOf {s : State} {i : Instr} {raw : Mask} {rst : Bool} (hi : i.wellFormed = true)
    (hpins : s.pins = inputsOf i raw rst) : presented s = i := by
  rw [presented, presentedCmd, hpins]
  exact decodeOfEncode i hi

/-- The same for a cycle in which a trace presents the operation `i` (R51). -/
theorem regs_after_of_inert {s : State} {f p frc : Word} {i : Instr} {raw : Mask} (h : s.regs = inertRegs f p frc)
    (hi : i.wellFormed = true) (hpins : s.pins = inputsOf i raw false) :
    (after s).regs = { inertRegs ((portAct i s.regs).fastPeriod.getD f) ((portAct i s.regs).slowPeriod.getD p)
      (frc + 1#32) with ctrl := (portAct i s.regs).ctrl.getD 0b00#2 } := by
  have hrst : s.pins.rst = false := by rw [hpins]; rfl
  rw [after_of_not_rst hrst, endCycle_regs, presented_of_inputsOf hi hpins, nextRegs_of_inert h]

/-- Settles O17: the block is inert in all three cycles of the sequence, so each leaves only what it writes. -/
theorem bootSequence : Obligations.BootSequence := by
  intro f p raw later ins s
  have hwrfp : (stateAt s 1).regs = inertRegs f 0#32 1#32 :=
    regs_after_of_inert (i := .wrfp f) (raw := raw) (f := 0#32) (p := 0#32) (frc := 0#32) rfl rfl rfl
  have hwrsp : (stateAt s 2).regs = inertRegs f p 2#32 :=
    regs_after_of_inert (i := .wrsp p) (raw := raw) hwrfp rfl (pins_stateAt_succ s 0)
  exact regs_after_of_inert (i := .wrctrl 3#2) (raw := raw) hwrsp rfl (pins_stateAt_succ s 1)

/-! ### Debounce latency (R136) -/

/-- How many more ticks that sample `b` commit it on channel `i`: the channel's counter, but at least one (R60, R65). -/
def ticksToCommit (d : Deb) (i : Nat) (b : Bool) : Nat :=
  if d.state.getLsbD i = b then 0 else max 1 (laneCount d i).toNat

theorem ticksToCommit_le_three (d : Deb) (i : Nat) (b : Bool) : ticksToCommit d i b ≤ 3 := by
  have hcount : (laneCount d i).toNat < 4 := (laneCount d i).isLt
  unfold ticksToCommit
  split <;> omega

theorem ticksToCommit_eq_zero_iff (d : Deb) (i : Nat) (b : Bool) :
    ticksToCommit d i b = 0 ↔ d.state.getLsbD i = b := by
  unfold ticksToCommit
  split <;> simp [*]

theorem ticksToCommit_debTick (d : Deb) (m : Mask) {i : Nat} (hi : i < 8) :
    ticksToCommit (debTick d m) i (m.getLsbD i) = ticksToCommit d i (m.getLsbD i) - 1 := by
  by_cases hagree : m.getLsbD i = d.state.getLsbD i
  · have hstate := (lane_of_agree hi hagree).2
    rw [(ticksToCommit_eq_zero_iff _ _ _).2 (hstate.trans hagree.symm),
      (ticksToCommit_eq_zero_iff _ _ _).2 hagree.symm]
  · by_cases hc : 2 ≤ (laneCount d i).toNat
    · obtain ⟨hcount, hstate⟩ := lane_of_countdown hi hagree hc
      rw [ticksToCommit, ticksToCommit, hstate, hcount, if_neg (Ne.symm hagree), if_neg (Ne.symm hagree)]
      omega
    · have hstate := (lane_of_flip hi hagree (by omega)).2
      rw [(ticksToCommit_eq_zero_iff _ _ _).2 hstate, ticksToCommit, if_neg (Ne.symm hagree)]
      omega

/-- A bound on the cycles until `b`, shown by channel `i` all the time, is committed: one period for each tick that it
takes, less what the fast timer has counted of the first. A counter above its period ticks like one at its end (R78). -/
def cyclesToCommit (r : Regs) (i : Nat) (b : Bool) : Nat :=
  ticksToCommit (debOf r) i b * r.fastPeriod.toNat - min r.fastCnt.toNat (r.fastPeriod.toNat - 1)

theorem cyclesToCommit_le (r : Regs) (i : Nat) (b : Bool) : cyclesToCommit r i b ≤ 3 * r.fastPeriod.toNat :=
  (Nat.sub_le _ _).trans (Nat.mul_le_mul_right _ (ticksToCommit_le_three _ _ _))

theorem state_of_cyclesToCommit_eq_zero {r : Regs} {i : Nat} {b : Bool} (hT : r.fastPeriod.toNat ≠ 0)
    (h : cyclesToCommit r i b = 0) : r.state.getLsbD i = b := by
  refine (ticksToCommit_eq_zero_iff (debOf r) i b).1 ?_
  by_contra hpos
  have hperiod : r.fastPeriod.toNat ≤ ticksToCommit (debOf r) i b * r.fastPeriod.toNat :=
    Nat.le_mul_of_pos_left _ (Nat.pos_of_ne_zero hpos)
  unfold cyclesToCommit at h
  omega

section Enabled
variable {s : State} (hT : s.regs.fastPeriod.toNat ≠ 0) (hen : s.regs.ctrl.getLsbD 0 = true)
include hT hen

theorem fastTimer_runs : (fastTimer s.regs).en = true ∧ (fastTimer s.regs).period ≠ 0#32 :=
  ⟨hen, fun h => hT (congrArg BitVec.toNat h)⟩

theorem fastTick_iff_end_of_period :
    fastTick s.regs = true ↔ s.regs.fastPeriod.toNat - 1 ≤ s.regs.fastCnt.toNat := by
  obtain ⟨hon, hperiod⟩ := fastTimer_runs hT hen
  exact (timerTick_iff _).trans ((and_iff_right hon).trans (and_iff_right hperiod))

theorem toNat_fastCnt_after (hrst : s.pins.rst = false) (hkept : writesFastPeriod s = false) :
    (after s).regs.fastCnt.toNat = if fastTick s.regs = true then 0 else s.regs.fastCnt.toNat + 1 := by
  have hcnt : (after s).regs.fastCnt = timerNext (writesFastPeriod s) (fastTimer s.regs) := isTimer_fast.cnt_after hrst
  rw [hcnt, toNat_timerNext, hkept, if_neg Bool.false_ne_true, if_neg (not_not.2 (fastTimer_runs hT hen))]
  rfl

/-- A tick takes one from the ticks still needed and restarts the period; any other cycle counts on in it. -/
theorem cyclesToCommit_after_le {i : Nat} (hi : i < 8) (hrst : s.pins.rst = false)
    (hkept : writesFastPeriod s = false) :
    cyclesToCommit (after s).regs i (sampledLevel s i) ≤ cyclesToCommit s.regs i (sampledLevel s i) - 1 := by
  have hperiod : (after s).regs.fastPeriod = s.regs.fastPeriod := isTimer_fast.period_after_of_no_write hrst hkept
  have hend := fastTick_iff_end_of_period hT hen
  unfold cyclesToCommit
  rw [hperiod, toNat_fastCnt_after hT hen hrst hkept, debOf_after_of_not_rst hrst]
  cases htick : fastTick s.regs with
  | true =>
    rw [htick, eq_self, true_iff] at hend
    rw [debNext_of_tick htick, if_pos rfl, sampledLevel, ticksToCommit_debTick _ _ hi, Nat.sub_one_mul]
    omega
  | false =>
    rw [htick, iff_false_left Bool.false_ne_true] at hend
    rw [debNext_of_no_tick htick, if_neg Bool.false_ne_true]
    omega

end Enabled

/-- Settles O29: the bound is at most three periods at first, and every cycle takes one from it. -/
theorem heldLevelIsCommitted : Obligations.HeldLevelIsCommitted := by
  intro s T i b hi hperiod hT hrun
  have hbound : ∀ n ≤ 3 * T, (stateAt s n).regs.fastPeriod.toNat = T ∧
      cyclesToCommit (stateAt s n).regs i b ≤ 3 * T - n := by
    intro n hn
    induction n with
    | zero => exact ⟨hperiod, hperiod ▸ cyclesToCommit_le s.regs i b⟩
    | succ n ih =>
      obtain ⟨hper, hle⟩ := ih (by omega)
      obtain ⟨hrst, hen, hkept, hlevel⟩ := hrun n hn
      have hstep := cyclesToCommit_after_le (by rwa [hper]) hen hi hrst hkept
      rw [hlevel] at hstep
      refine ⟨(congrArg BitVec.toNat (isTimer_fast.period_after_of_no_write hrst hkept)).trans hper, ?_⟩
      rw [stateAt_succ]
      omega
  obtain ⟨hper, hle⟩ := hbound (3 * T) le_rfl
  exact state_of_cyclesToCommit_eq_zero (by rwa [hper]) (by omega)

end Sys2Proof.Machine
